-- ==== Sys2Proof/Word.lean ====
section
/-! DEFINITION. The widths of the block's quantities (00_scope.md R8, R9). -/

namespace Sys2Proof

/-- A command word, a coder register, the data of a response: 32 bits. -/
abbrev Word := BitVec 32

/-- A byte of a stream, a byte value, an 8-bit operand. -/
abbrev Byte := BitVec 8

/-- A bit-tree node (`NODEW`, R8). -/
abbrev Node := BitVec 9

/-- A bit probability `p`, standing for `p/65536` (`PW`, R8, R84). -/
abbrev Prob := BitVec 16

/-- A mass of the byte-level distribution (`DW`, R8, R109). -/
abbrev Mass := BitVec 17

/-- An entry of the tables `FWD` and `INV` (R24). -/
abbrev Entry := BitVec 9

/-- The vocabulary's presence mask (`MASKW`, R8, R23). -/
abbrev Mask := BitVec 256

/-- The header's length and the two counters (`LENW`, R8, R20). -/
abbrev Len := BitVec 40

end Sys2Proof
end

