-- ==== Sys2Proof/Syntax.lean ====
section
/-! DEFINITION. The 33 commands (30_encoding.md R55), each with the fields its format names (R52). -/

namespace Sys2Proof

/-- A command of the block. Fields are the unsigned integers of R53; a one-bit field is a `Bool`. -/
inductive Instr where
  | nop
  | sreset
  | rdr (r : Byte)
  | stop
  | vmclr
  | vmall
  | vmark (b : Byte)
  | vmbuild
  | vmfwd (b : Byte)
  | vminv (i : Byte)
  | hdrw
  | hdrr
  | estart
  | ebit (bit : Bool) (p : Prob)
  | encb (b : Byte)
  | eflush
  | dstart
  | dbit (p : Prob)
  | decb
  | pinit
  | ppred (node : Node)
  | pobs (node : Node) (bit : Bool)
  | btrst
  | btstep (bit : Bool)
  | sstart
  | trainb (b : Byte)
  | xent
  | gstart
  | genb
  | sdist (i : Byte)
  | setmask (k : BitVec 3) (ext : Word)
  | setlen (hi8 : Byte) (ext : Word)
  | seed (ext : Word)
deriving DecidableEq, Repr

end Sys2Proof
end

