-- ==== Sys2Proof/WellFormed.lean ====
section
/-! DEFINITION. Well-formed commands: the range checks of R53 "that a field's width does not already enforce"
and that the command alone decides. An ill-formed command has an encoding and decodes; executing it is a fault
(R135), never an effect. `SDIST`'s index is checked against `VSIZE`, which is state, so it is not here. -/

namespace Sys2Proof

/-- The operands are ones the command can accept in some state (R53, R16, R87, R88, R97, R101). -/
def Instr.wellFormed : Instr → Bool
  | .rdr r => decide (r.toNat ≤ 0x1B)
  | .ebit _ p => decide (p ≠ 0)
  | .dbit p => decide (p ≠ 0)
  | .ppred node => decide (1 ≤ node.toNat ∧ node.toNat ≤ 255)
  | .pobs node _ => decide (1 ≤ node.toNat ∧ node.toNat ≤ 255)
  | .nop | .sreset | .stop | .vmclr | .vmall | .vmark _ | .vmbuild | .vmfwd _ | .vminv _
  | .hdrw | .hdrr | .estart | .encb _ | .eflush | .dstart | .decb | .pinit | .btrst | .btstep _
  | .sstart | .trainb _ | .xent | .gstart | .genb | .sdist _ | .setmask _ _ | .setlen _ _ | .seed _ => true

end Sys2Proof
end

