-- ==== Sys2Proof/Decode.lean ====
section
/-! DEFINITION. Decoding a command from the word stream (30_encoding.md R51 to R57), then the encoder.
A command word has no byte order (R44): the unit is the 32-bit word. -/

namespace Sys2Proof

/-! ## Decoding -/

/-- Why a first word selects no command (R56): both raise `F_ILLEGAL`. -/
inductive IllegalReason where
  /-- (a) one of the unassigned opcodes -/
  | unassignedOpcode
  /-- (b) an assigned opcode with a reserved bit set -/
  | reservedBitSet
deriving DecidableEq, Repr

/-- What a first word with its extension word is. -/
inductive Decoded where
  | command (i : Instr)
  | illegal (why : IllegalReason)
deriving DecidableEq, Repr

/-- `op`, bits 31:24 of the first word (R51). -/
def opcodeOf (w : Word) : Byte := w.extractLsb' 24 8

/-- Bit 31 of the first word alone gives the length: 1 means an extension word follows (R51). -/
def hasExtension (w : Word) : Bool := w.getLsbD 31

/-- Bits 23:`lo` of the first word are the format's reserved bits; if one is set the word is illegal (R52, R56). -/
def ifReservedZero (w : Word) (lo : Nat) (i : Instr) : Decoded :=
  if w.extractLsb' lo (24 - lo) = 0 then .command i else .illegal .reservedBitSet

/-- Format N: 23:0 reserved. -/
def formatN (w : Word) (i : Instr) : Decoded := ifReservedZero w 0 i

/-- Format B: 23:8 reserved; `imm8` = 7:0. -/
def formatB (w : Word) (mk : Byte → Instr) : Decoded := ifReservedZero w 8 (mk (w.extractLsb' 0 8))

/-- Format P: 23:17 reserved; `bit` = 16; `p16` = 15:0. -/
def formatP (w : Word) (mk : Bool → Prob → Instr) : Decoded :=
  ifReservedZero w 17 (mk (w.getLsbD 16) (w.extractLsb' 0 16))

/-- Format Q: 23:16 reserved; `p16` = 15:0. -/
def formatQ (w : Word) (mk : Prob → Instr) : Decoded := ifReservedZero w 16 (mk (w.extractLsb' 0 16))

/-- Format K: 23:9 reserved; `node` = 8:0. -/
def formatK (w : Word) (mk : Node → Instr) : Decoded := ifReservedZero w 9 (mk (w.extractLsb' 0 9))

/-- Format O: 23:10 reserved; `bit` = 9; `node` = 8:0. -/
def formatO (w : Word) (mk : Node → Bool → Instr) : Decoded :=
  ifReservedZero w 10 (mk (w.extractLsb' 0 9) (w.getLsbD 9))

/-- Format T: 23:1 reserved; `bit` = 0. -/
def formatT (w : Word) (mk : Bool → Instr) : Decoded := ifReservedZero w 1 (mk (w.getLsbD 0))

/-- Format XM: 23:3 reserved; `k` = 2:0; `ext` is the second word. -/
def formatXM (w ext : Word) (mk : BitVec 3 → Word → Instr) : Decoded :=
  ifReservedZero w 3 (mk (w.extractLsb' 0 3) ext)

/-- Format XL: 23:8 reserved; `hi8` = 7:0; `ext` is the second word. -/
def formatXL (w ext : Word) (mk : Byte → Word → Instr) : Decoded :=
  ifReservedZero w 8 (mk (w.extractLsb' 0 8) ext)

/-- Format XS: 23:0 reserved; `ext` is the second word. -/
def formatXS (w ext : Word) (mk : Word → Instr) : Decoded := ifReservedZero w 0 (mk ext)

/-- The opcode map of R55, by opcode, each with its format of R52. `ext` is used by two-word formats only. -/
def decode (w ext : Word) : Decoded :=
  match (opcodeOf w).toNat with
  | 0x00 => formatN w .nop
  | 0x01 => formatN w .sreset
  | 0x02 => formatB w .rdr
  | 0x03 => formatN w .stop
  | 0x10 => formatN w .vmclr
  | 0x11 => formatN w .vmall
  | 0x12 => formatB w .vmark
  | 0x13 => formatN w .vmbuild
  | 0x14 => formatB w .vmfwd
  | 0x15 => formatB w .vminv
  | 0x20 => formatN w .hdrw
  | 0x21 => formatN w .hdrr
  | 0x30 => formatN w .estart
  | 0x31 => formatP w .ebit
  | 0x32 => formatB w .encb
  | 0x33 => formatN w .eflush
  | 0x40 => formatN w .dstart
  | 0x41 => formatQ w .dbit
  | 0x42 => formatN w .decb
  | 0x50 => formatN w .pinit
  | 0x51 => formatK w .ppred
  | 0x52 => formatO w .pobs
  | 0x53 => formatN w .btrst
  | 0x54 => formatT w .btstep
  | 0x60 => formatN w .sstart
  | 0x61 => formatB w .trainb
  | 0x62 => formatN w .xent
  | 0x63 => formatN w .gstart
  | 0x64 => formatN w .genb
  | 0x65 => formatB w .sdist
  | 0x80 => formatXM w ext .setmask
  | 0x81 => formatXL w ext .setlen
  | 0x82 => formatXS w ext .seed
  | _ => .illegal .unassignedOpcode

/-- What the head of the command stream holds (R54, R57). -/
inductive Fetched where
  /-- no word has arrived -/
  | noCommand
  /-- a two-word first word whose extension word has not arrived -/
  | noExtension
  /-- a whole illegal command, its extension word included if bit 31 is set -/
  | illegal (why : IllegalReason) (rest : List Word)
  /-- a whole command -/
  | command (i : Instr) (rest : List Word)
deriving DecidableEq, Repr

/-- A decoded command with what is left of the stream after it. -/
def Decoded.withRest (d : Decoded) (rest : List Word) : Fetched :=
  match d with
  | .command i => .command i rest
  | .illegal why => .illegal why rest

/-- The next command of the word stream: a total function of the stream (R57). -/
def fetch : List Word → Fetched
  | [] => .noCommand
  | w :: ws =>
    if hasExtension w then
      match ws with
      | [] => .noExtension
      | ext :: rest => (decode w ext).withRest rest
    else (decode w 0).withRest ws

/-- The words of one instruction given as a number: the first word is bits 31:0, an extension word bits 63:32;
bits at or above `nbits` are 0. -/
def tableWords (nbits w : Nat) : List Word :=
  let v := w % 2 ^ nbits
  let w0 : Word := BitVec.ofNat 32 v
  if hasExtension w0 then [w0, BitVec.ofNat 32 (v / 2 ^ 32)] else [w0]

/-- The instruction the decoder reads from an instruction whose bits are `w`, numbered as
spec/opcode_table.json numbers them. -/
def decodeTableWord (nbits w : Nat) : Option Instr :=
  match fetch (tableWords nbits w) with
  | .command i _ => some i
  | _ => none

/-! ## Encoding -/

/-- The words of a command (R52, R55): opcode, zeros in the reserved bits, fields, then the extension word. -/
def encode : Instr → List Word
  | .nop => [0x00#8 ++ 0#24]
  | .sreset => [0x01#8 ++ 0#24]
  | .rdr r => [0x02#8 ++ 0#16 ++ r]
  | .stop => [0x03#8 ++ 0#24]
  | .vmclr => [0x10#8 ++ 0#24]
  | .vmall => [0x11#8 ++ 0#24]
  | .vmark b => [0x12#8 ++ 0#16 ++ b]
  | .vmbuild => [0x13#8 ++ 0#24]
  | .vmfwd b => [0x14#8 ++ 0#16 ++ b]
  | .vminv i => [0x15#8 ++ 0#16 ++ i]
  | .hdrw => [0x20#8 ++ 0#24]
  | .hdrr => [0x21#8 ++ 0#24]
  | .estart => [0x30#8 ++ 0#24]
  | .ebit bit p => [0x31#8 ++ 0#7 ++ BitVec.ofBool bit ++ p]
  | .encb b => [0x32#8 ++ 0#16 ++ b]
  | .eflush => [0x33#8 ++ 0#24]
  | .dstart => [0x40#8 ++ 0#24]
  | .dbit p => [0x41#8 ++ 0#8 ++ p]
  | .decb => [0x42#8 ++ 0#24]
  | .pinit => [0x50#8 ++ 0#24]
  | .ppred node => [0x51#8 ++ 0#15 ++ node]
  | .pobs node bit => [0x52#8 ++ 0#14 ++ BitVec.ofBool bit ++ node]
  | .btrst => [0x53#8 ++ 0#24]
  | .btstep bit => [0x54#8 ++ 0#23 ++ BitVec.ofBool bit]
  | .sstart => [0x60#8 ++ 0#24]
  | .trainb b => [0x61#8 ++ 0#16 ++ b]
  | .xent => [0x62#8 ++ 0#24]
  | .gstart => [0x63#8 ++ 0#24]
  | .genb => [0x64#8 ++ 0#24]
  | .sdist i => [0x65#8 ++ 0#16 ++ i]
  | .setmask k ext => [0x80#8 ++ 0#21 ++ k, ext]
  | .setlen hi8 ext => [0x81#8 ++ 0#16 ++ hi8, ext]
  | .seed ext => [0x82#8 ++ 0#24, ext]

/-- The words of a list of commands, in order. -/
def assemble (is : List Instr) : List Word := is.flatMap encode

/-! ## The opcode map as the table of R55 -/

/-- A row of R55: `match` and `mask` are for the first word. -/
structure OpRow where
  mnemonic : String
  pattern : Word
  mask : Word
  words : Nat
deriving DecidableEq, Repr

/-- "A first word `w` selects the command iff `w & mask == match`" (R55). -/
def OpRow.selects (row : OpRow) (w : Word) : Bool := w &&& row.mask == row.pattern

/-- The 33 rows of R55, as spec/opcode_table.json has them. -/
def opcodeMap : List OpRow :=
  [⟨"NOP", 0x00000000, 0xFFFFFFFF, 1⟩, ⟨"SRESET", 0x01000000, 0xFFFFFFFF, 1⟩, ⟨"RDR", 0x02000000, 0xFFFFFF00, 1⟩,
   ⟨"STOP", 0x03000000, 0xFFFFFFFF, 1⟩, ⟨"VMCLR", 0x10000000, 0xFFFFFFFF, 1⟩, ⟨"VMALL", 0x11000000, 0xFFFFFFFF, 1⟩,
   ⟨"VMARK", 0x12000000, 0xFFFFFF00, 1⟩, ⟨"VMBUILD", 0x13000000, 0xFFFFFFFF, 1⟩, ⟨"VMFWD", 0x14000000, 0xFFFFFF00, 1⟩,
   ⟨"VMINV", 0x15000000, 0xFFFFFF00, 1⟩, ⟨"HDRW", 0x20000000, 0xFFFFFFFF, 1⟩, ⟨"HDRR", 0x21000000, 0xFFFFFFFF, 1⟩]
  ++
  [⟨"ESTART", 0x30000000, 0xFFFFFFFF, 1⟩, ⟨"EBIT", 0x31000000, 0xFFFE0000, 1⟩, ⟨"ENCB", 0x32000000, 0xFFFFFF00, 1⟩,
   ⟨"EFLUSH", 0x33000000, 0xFFFFFFFF, 1⟩, ⟨"DSTART", 0x40000000, 0xFFFFFFFF, 1⟩, ⟨"DBIT", 0x41000000, 0xFFFF0000, 1⟩,
   ⟨"DECB", 0x42000000, 0xFFFFFFFF, 1⟩, ⟨"PINIT", 0x50000000, 0xFFFFFFFF, 1⟩, ⟨"PPRED", 0x51000000, 0xFFFFFE00, 1⟩,
   ⟨"POBS", 0x52000000, 0xFFFFFC00, 1⟩, ⟨"BTRST", 0x53000000, 0xFFFFFFFF, 1⟩, ⟨"BTSTEP", 0x54000000, 0xFFFFFFFE, 1⟩]
  ++
  [⟨"SSTART", 0x60000000, 0xFFFFFFFF, 1⟩, ⟨"TRAINB", 0x61000000, 0xFFFFFF00, 1⟩, ⟨"XENT", 0x62000000, 0xFFFFFFFF, 1⟩,
   ⟨"GSTART", 0x63000000, 0xFFFFFFFF, 1⟩, ⟨"GENB", 0x64000000, 0xFFFFFFFF, 1⟩, ⟨"SDIST", 0x65000000, 0xFFFFFF00, 1⟩,
   ⟨"SETMASK", 0x80000000, 0xFFFFFFF8, 2⟩, ⟨"SETLEN", 0x81000000, 0xFFFFFF00, 2⟩, ⟨"SEED", 0x82000000, 0xFFFFFFFF, 2⟩]

/-- The mnemonic of a command (R59). -/
def Instr.mnemonic : Instr → String
  | .nop => "NOP" | .sreset => "SRESET" | .rdr _ => "RDR" | .stop => "STOP"
  | .vmclr => "VMCLR" | .vmall => "VMALL" | .vmark _ => "VMARK" | .vmbuild => "VMBUILD"
  | .vmfwd _ => "VMFWD" | .vminv _ => "VMINV" | .hdrw => "HDRW" | .hdrr => "HDRR"
  | .estart => "ESTART" | .ebit _ _ => "EBIT" | .encb _ => "ENCB" | .eflush => "EFLUSH"
  | .dstart => "DSTART" | .dbit _ => "DBIT" | .decb => "DECB" | .pinit => "PINIT"
  | .ppred _ => "PPRED" | .pobs _ _ => "POBS" | .btrst => "BTRST" | .btstep _ => "BTSTEP"
  | .sstart => "SSTART" | .trainb _ => "TRAINB" | .xent => "XENT" | .gstart => "GSTART"
  | .genb => "GENB" | .sdist _ => "SDIST" | .setmask _ _ => "SETMASK" | .setlen _ _ => "SETLEN"
  | .seed _ => "SEED"

end Sys2Proof
end

