-- ==== Sys2Proof/Config.lean ====
section
/-! DEFINITION. What is fixed for the life of the block and left open by the spec: the parameters `PRED`
(44_predictor.md R82) and `BMODEL` (46_sampler.md R109), and the two values the spec does not state (log 7, log 17).
All of it is opaque: nothing about these functions can be proved, so a theorem about the block holds for
every instance. -/

namespace Sys2Proof

/-- A value of `PRED.State` (R82): weights and hidden state alike. The block "never looks inside".
DESIGN CHOICE, log 4: it is coded as a list of naturals, which any countable state type has a code in. -/
structure PredState where
  cells : List Nat
deriving DecidableEq, Repr, Inhabited

/-- A value of `BMODEL.State` (R109). DESIGN CHOICE, log 5: coded as a list of naturals. -/
structure ByteState where
  cells : List Nat
deriving DecidableEq, Repr, Inhabited

/-- An instance of the bit predictor: the three total functions of R82. -/
structure Pred where
  init : Mask → PredState
  predict : PredState → Node → Prob
  observe : PredState → Node → Bool → Prob → PredState

/-- An instance of the byte-level model: the two total functions of R109. A distribution over `V` symbols
is given by the mass of each index; the block takes the indices below `VSIZE` of it (log 5). -/
structure ByteModel where
  init : Nat → ByteState × (Nat → Nat)
  update : ByteState → Nat → ByteState × (Nat → Nat)

/-- `PRED.init`, open (R82, U1). -/
opaque Config.predInit : Mask → PredState

/-- `PRED.predict`, open (R82, U1). -/
opaque Config.predPredict : PredState → Node → Prob

/-- `PRED.observe`, open (R82, U1). -/
opaque Config.predObserve : PredState → Node → Bool → Prob → PredState

/-- `BMODEL.init`, open (R109, U2). -/
opaque Config.byteInit : Nat → ByteState × (Nat → Nat)

/-- `BMODEL.update`, open (R109, U2). -/
opaque Config.byteUpdate : ByteState → Nat → ByteState × (Nat → Nat)

/-- The data `XENT` answers where R115 gives a quotient that is negative or wider than 32 bits: a free value
of `HACC` and `NSYM` (DESIGN CHOICE, log 7). -/
opaque Config.xentUnstated : BitVec 64 → Len → Word

/-- The entry that the fixture TP1 writes where R90's `t'` is no 16-bit value: a free value of `t`, `p` and the bit
(DESIGN CHOICE, log 17). R82 has `observe` defined there, R90 gives no value, and no command of the block gets there. -/
opaque Config.tp1Unstated : Prob → Prob → Bool → Prob

/-- The block's bit predictor `PRED`. -/
def Config.pred : Pred := ⟨Config.predInit, Config.predPredict, Config.predObserve⟩

/-- The block's byte-level model `BMODEL`. -/
def Config.bmodel : ByteModel := ⟨Config.byteInit, Config.byteUpdate⟩

end Sys2Proof
end

