-- ==== Sys2Proof/Machine/Params.lean ====
section
/-! DEFINITION. The numeric parameters of 00_scope.md R8, each once. They are the spec's literals, which it says
are unaudited (93 U9): log 16. -/

namespace Sys2Proof.Machine

/-- `NVAL`: number of byte values. -/
def numValues : Nat := 256

/-- `THRESH`: the bitmap is in the header from this length on. -/
def bitmapThreshold : Nat := 10000

/-- The header's length field is `LENW` = 40 bits, 5 bytes. -/
def lengthBytes : Nat := 5

/-- `BMBYTES`: bytes of the bitmap. -/
def bitmapBytes : Nat := 32

/-- `BITS`: decisions per byte. -/
def bitsPerByte : Nat := 8

/-- `FLUSHB`: bytes written by a flush and read by `DSTART`. -/
def flushBytes : Nat := 4

/-- `NormaliseE` and `NormaliseD` shift at most this often (R94). -/
def maxShifts : Nat := 4

/-- `RNG_A`, the generator's multiplier. -/
def rngMultiplier : Word := 1664525

/-- `RNG_C`, the generator's increment. -/
def rngIncrement : Word := 1013904223

/-- `ID` (R17). -/
def identity : Word := 0x4C435201

/-- A mass is stored saturated to this (R109). -/
def massOne : Nat := 65536

/-- Table entry "absent, rank 0" of `FWD` and "no such index" of `INV` (R24, R35). -/
def absentEntry : Entry := 0x100

end Sys2Proof.Machine
end

