-- ==== Sys2Proof/Machine/State.lean ====
section
/-! DEFINITION. The whole state of the block (10_state.md R14), the environment's streams that a model passes to
the step function (R36), the state after reset (R35), and the reasons a step can stop. -/

namespace Sys2Proof.Machine

/-- `PHASE` (R18, R19). Codes 5 to 7 "never occur" (log 9). -/
inductive Phase where
  | idle
  | enc
  | dec
  | train
  | gen
deriving DecidableEq, Repr

/-- A response `{err, data}` (R58). -/
structure Response where
  err : Bool
  data : Word
deriving DecidableEq, Repr

/-- The state: the tuple of R14, then the four streams of the environment (R36; log 1, log 2). -/
structure State where
  /-- `PHASE` (R19) -/
  phase : Phase
  /-- `BITCNT` (R21) -/
  bitcnt : BitVec 4
  /-- `COUNT` (R20) -/
  count : Len
  /-- `FAULT` (R33) -/
  fault : BitVec 8
  /-- `LEN` (R22) -/
  len : Len
  /-- `VMASK` (R23) -/
  vmask : Mask
  /-- `VSIZE` (R24) -/
  vsize : BitVec 9
  /-- `FWD` (R24) -/
  fwd : Vector Entry 256
  /-- `INV` (R24) -/
  inv : Vector Entry 256
  /-- `VMV` (R24, R34) -/
  vmv : Bool
  /-- `NODE` (R21) -/
  node : Node
  /-- `PLAST` (R25) -/
  plast : Prob
  /-- `PNODE` (R25) -/
  pnode : Node
  /-- `PLV` (R25, R34) -/
  plv : Bool
  /-- `ELOW` (R26) -/
  elow : Word
  /-- `EHIGH` (R26) -/
  ehigh : Word
  /-- `DLOW` (R27) -/
  dlow : Word
  /-- `DHIGH` (R27) -/
  dhigh : Word
  /-- `DCODE` (R27) -/
  dcode : Word
  /-- `PSTATE` (R29; log 4, log 6) -/
  pstate : PredState
  /-- `PRV` (R29, R34) -/
  prv : Bool
  /-- `BSTATE` (R30; log 5, log 6) -/
  bstate : ByteState
  /-- `DIST` (R30) -/
  dist : List Mass
  /-- `BMV` (R30, R34) -/
  bmv : Bool
  /-- `HACC` (R31) -/
  hacc : BitVec 64
  /-- `NSYM` (R20) -/
  nsym : Len
  /-- `RNG` (R32) -/
  rng : Word
  /-- `SEEDED` (R32, R34) -/
  seeded : Bool
  /-- command words presented and not yet taken, oldest first (R38; log 1) -/
  cmd : List Word
  /-- the IN stream, oldest byte first (R40, R41; log 2) -/
  inp : List Byte
  /-- the OUT stream, oldest byte first (R40, R42; log 2) -/
  out : List Byte
  /-- the responses given, oldest first (R39; log 2) -/
  resp : List Response
deriving DecidableEq, Repr

/-- Why the step relation has no successor: the block holds (R141; log 3). None of these is a fault of the block
(a fault of R135 is a next state). All are safe: the hardware does nothing here either, until the environment acts. -/
inductive Fault where
  /-- Raised by `step` when no command word has arrived (R38, R145 (e)). Safe. -/
  | holdCommand
  /-- Raised by `step` when a two-word command's extension word has not arrived (R54, R141). Safe. -/
  | holdExtension
  /-- Raised by `HDRR`, `DSTART`, `DBIT`, `DECB` when IN has too few bytes (R41, R141). Safe. -/
  | holdInput
deriving DecidableEq, Repr

/-- Why a command has no meaning in the model. -/
inductive Refusal where
  /-- Raised by `exec` for a command whose meaning is not written; no arm of this model uses it. Safe. -/
  | notModelled (mnemonic : String)
deriving DecidableEq, Repr

/-- What executing a command gives. -/
abbrev Result := Host.Outcome State Fault Refusal

/-- Every piece of state at its value of R35; the streams, which reset does not touch, are empty (log 1, log 2). -/
def State.reset : State where
  phase := .idle
  bitcnt := 0
  count := 0
  fault := 0
  len := 0
  vmask := 0
  vsize := 0
  fwd := Vector.replicate 256 absentEntry
  inv := Vector.replicate 256 absentEntry
  vmv := false
  node := 1
  plast := 0
  pnode := 0
  plv := false
  elow := 0x00000000
  ehigh := 0xFFFFFFFF
  dlow := 0x00000000
  dhigh := 0xFFFFFFFF
  dcode := 0x00000000
  pstate := ⟨[]⟩
  prv := false
  bstate := ⟨[]⟩
  dist := []
  bmv := false
  hacc := 0
  nsym := 0
  rng := 0
  seeded := false
  cmd := []
  inp := []
  out := []
  resp := []

end Sys2Proof.Machine
end

