-- ==== Sys2Proof/Machine/Operands.lean ====
section
/-! DEFINITION. Operand forms and the assembly of multi-byte quantities (R53, R43, R71): pure functions of
operands and registers. -/

namespace Sys2Proof.Machine

/-! ## Operands of a command (R53) -/

/-- `SETLEN`'s 40-bit operand `{hi8, ext}` (R53). -/
def lenOperand (hi8 : Byte) (ext : Word) : Len := hi8 ++ ext

/-- The nodes a decision is made at, 1 to 255 (R82, R87). -/
abbrev nodeInRange (node : Node) : Prop := 1 ≤ node.toNat ∧ node.toNat ≤ 255

/-- The probabilities strictly inside (0,1): `p16 != 0` (R84, R97). -/
abbrev probInRange (p : Prob) : Prop := p ≠ 0

/-- The bits of a payload byte, most significant first (R43, R77). -/
def byteBits (b : Byte) : List Bool :=
  [b.getLsbD 7, b.getLsbD 6, b.getLsbD 5, b.getLsbD 4, b.getLsbD 3, b.getLsbD 2, b.getLsbD 1, b.getLsbD 0]

/-! ## The mask as words (R23) -/

/-- `VMASK`k = `VMASK[32k+31:32k]` (R16, R23). -/
def maskWord (m : Mask) (k : Nat) : Word := m.extractLsb' (32 * k) 32

/-- `for b in 0..31: VMASK[32*k + b] <- w[b]` (R66). -/
def setMaskWord (m : Mask) (k : BitVec 3) (w : Word) : Mask :=
  (m &&& ~~~((0xFFFFFFFF#32).zeroExtend 256 <<< (32 * k.toNat))) ||| (w.zeroExtend 256 <<< (32 * k.toNat))

/-- `VMASK[b] <- 1` (R65). -/
def markValue (m : Mask) (b : Byte) : Mask := m ||| (1#256 <<< b.toNat)

/-- Number of present values below `v` (R24, R90). -/
def rank (m : Mask) (v : Nat) : Nat := (List.range v).countP fun u => m.getLsbD u

/-- The present values in ascending order: `v_0 < v_1 < ... < v_(n-1)` (R61). -/
def presentValues (m : Mask) : List Nat := (List.range numValues).filter fun v => m.getLsbD v

/-! ## Bytes of the header (R71) and of the coder (R43) -/

/-- `v[31:24], v[23:16], v[15:8], v[7:0]`: a word's bytes, most significant first (R43 (d)). -/
def wordBytes (v : Word) : List Byte :=
  [v.extractLsb' 24 8, v.extractLsb' 16 8, v.extractLsb' 8 8, v.extractLsb' 0 8]

/-- `c <- (c << 8) | b` for each byte, the first ending in the top bits (R100, R43 (e)). -/
def wordOfBytes (bs : List Byte) : Word := bs.foldl (fun c b => (c <<< 8) ||| b.zeroExtend 32) 0

/-- The header's length field: 5 bytes, most significant first (R71). -/
def lenBytes (n : Len) : List Byte :=
  [n.extractLsb' 32 8, n.extractLsb' 24 8, n.extractLsb' 16 8, n.extractLsb' 8 8, n.extractLsb' 0 8]

/-- `L <- (L << 8) | InByte()` for each byte (R75). -/
def lenOfBytes (bs : List Byte) : Len := bs.foldl (fun l b => (l <<< 8) ||| b.zeroExtend 40) 0

/-- The bitmap: byte `i` has bit `j` = `VMASK[8*i+j]`, bytes in order i = 0 to 31 (R71). -/
def bitmapOfMask (m : Mask) : List Byte := (List.range bitmapBytes).map fun i => m.extractLsb' (8 * i) 8

/-- `VMASK[8*i+j] <- bm[i][j]` for all i, j (R75). -/
def maskOfBitmap (bm : List Byte) : Mask := bm.foldr (fun b m => (m <<< 8) ||| b.zeroExtend 256) 0

/-- `n` bytes of IN, or none when IN has fewer (R41). -/
def takeBytes (n : Nat) (inp : List Byte) : Option (List Byte × List Byte) :=
  if n ≤ inp.length then some (inp.take n, inp.drop n) else none

/-! ## The probability and the mass formats -/

/-- `Clamp(x) = 1 if x = 0, else x` (R84). -/
def clamp (x : Prob) : Prob := if x = 0 then 1 else x

/-- A mass above 65536 returned by an instance is stored as 65536 (R109). -/
def saturateMass (q : Nat) : Mass := BitVec.ofNat 17 (min q massOne)

/-- The stored distribution over `v` symbols (R109, R30). -/
def storedDist (v : Nat) (mass : Nat → Nat) : List Mass := (List.range v).map fun i => saturateMass (mass i)

end Sys2Proof.Machine
end

