-- ==== Sys2Proof/Machine/Arith.lean ====
section
/-! DEFINITION. The sampler's arithmetic: `LOG2FX` (R111), one draw of the generator (R112), the scan (R118) and
the average of `XENT` (R115). -/

namespace Sys2Proof.Machine

/-- The passes of `LOG2FX` still to do, the value `x` and the fraction bits found so far (R111): pass `i` of 16
is the one with `16 - i` passes after it. -/
def log2Passes : Nat → Nat → Nat → Nat
  | 0, _, frac => frac
  | n + 1, x, frac =>
    let y := (x * x) >>> 31
    if 2 ^ 32 ≤ y then log2Passes n (y >>> 1) (frac ||| 1 <<< n) else log2Passes n y frac

/-- `LOG2FX(q)`: `log2(q/65536)` in units of 1/65536 bit, for `q` in 1 to 65536 (R111). -/
def log2fx (q : Nat) : Int :=
  let e := Nat.log2 q
  (((e <<< 16) ||| log2Passes 16 (q <<< (31 - e)) 0 : Nat) : Int) - ((16 <<< 16 : Nat) : Int)

/-- `RNG <- (RNG * 1664525 + 1013904223) mod 2^32` (R112). -/
def nextRng (rng : Word) : Word := rng * rngMultiplier + rngIncrement

/-- `r <- RNG[31:16]` (R112). -/
def drawOf (rng : Word) : BitVec 16 := rng.extractLsb' 16 16

/-- The scan of `GENB` from index `i` on: the first index whose mass makes `r` negative, if any (R118). -/
def scan : List Mass → Int → Nat → Option Nat
  | [], _, _ => none
  | q :: qs, r, i =>
    let r' := r - (q.toNat : Int)
    if r' < 0 then some i else scan qs r' (i + 1)

/-- `-HACC`, an integer (R115). -/
def negAcc (hacc : BitVec 64) : Int := -hacc.toInt

/-- The data of `XENT`: `(-HACC) div NSYM`, rounded down, where it is a 32-bit number (R115, R58); elsewhere the
spec states no value and the data is free (log 7). -/
def crossEntropy (hacc : BitVec 64) (nsym : Len) : Word :=
  if 0 ≤ negAcc hacc ∧ (negAcc hacc).toNat / nsym.toNat < 2 ^ 32 then
    BitVec.ofNat 32 ((negAcc hacc).toNat / nsym.toNat)
  else Config.xentUnstated hacc nsym

end Sys2Proof.Machine
end

