-- ==== Sys2Proof/Machine/Flags.lean ====
section
/-! DEFINITION. The validity flags (R34), the phase as a number, and the view `STATUS` (R18). The block has no
condition codes (R34). -/

namespace Sys2Proof.Machine

/-- `PHASE` as its 3-bit code (R18). -/
def Phase.code : Phase → BitVec 3
  | .idle => 0
  | .enc => 1
  | .dec => 2
  | .train => 3
  | .gen => 4

/-- `MaskChanged: VMV <- 0; PRV <- 0; BMV <- 0; PLV <- 0` (R62). -/
def State.maskChanged (s : State) : State := { s with vmv := false, prv := false, bmv := false, plv := false }

/-- The flags `BuildMap` writes: `VMV <- 1; PRV <- 0; BMV <- 0; PLV <- 0` (R67). -/
def State.mapBuilt (s : State) : State := { s with vmv := true, prv := false, bmv := false, plv := false }

/-- `STATUS`, assembled from the state its fields name; bits 31:20 read as 0 (R18). -/
def State.status (s : State) : Word :=
  0#12 ++ s.bitcnt ++ s.fault ++ BitVec.ofBool s.seeded ++ BitVec.ofBool s.plv ++ BitVec.ofBool s.bmv
    ++ BitVec.ofBool s.prv ++ BitVec.ofBool s.vmv ++ s.phase.code

end Sys2Proof.Machine
end

