-- ==== Sys2Proof/Machine/Interval.lean ====
section
/-! DEFINITION. The coder's interval (R92): split, narrow (R93) and renormalise (R94). The encoder and the decoder
share `split` and `narrow`. -/

namespace Sys2Proof.Machine

/-- The two inclusive bounds (R92). -/
structure Interval where
  low : Word
  high : Word
deriving DecidableEq, Repr

/-- The decoder's interval and its window of 32 coded bits (R27). -/
structure Window where
  iv : Interval
  code : Word
deriving DecidableEq, Repr

/-- `[0, 0xFFFFFFFF]`, the whole window (R92). -/
def wholeInterval : Interval := ⟨0x00000000, 0xFFFFFFFF⟩

/-- `Split(low, high, p) = low + (((high - low) * p) >> 16)`, exact, then a 32-bit register (R93, R131). -/
def split (low high : Word) (p : Prob) : Word :=
  BitVec.ofNat 32 (low.toNat + ((high.toNat - low.toNat) * p.toNat) >>> 16)

/-- `Narrow`: bit 1 takes the lower part `[low, xmid]`, bit 0 the upper part `[xmid+1, high]` (R93). -/
def narrow (iv : Interval) (p : Prob) (bit : Bool) : Interval :=
  let xmid := split iv.low iv.high p
  if bit then { iv with high := xmid } else { iv with low := xmid + 1 }

/-- `v[31:24]`. -/
def topByte (v : Word) : Byte := v.extractLsb' 24 8

/-- `(low << 8) mod 2^32`: the low byte is 0x00 (R94). -/
def shiftLow (v : Word) : Word := v <<< 8

/-- `((high << 8) mod 2^32) | 0xFF` (R94). -/
def shiftHigh (v : Word) : Word := (v <<< 8) ||| 0xFF

/-- `((code << 8) mod 2^32) | InByte()` (R94). -/
def shiftCode (v : Word) (b : Byte) : Word := (v <<< 8) ||| b.zeroExtend 32

/-- Both bounds one byte on (R94). -/
def Interval.shift (iv : Interval) : Interval := ⟨shiftLow iv.low, shiftHigh iv.high⟩

/-- The bounds' top bytes agree: the byte is settled (R94). -/
abbrev Interval.settled (iv : Interval) : Prop := topByte iv.low = topByte iv.high

/-- `NormaliseE` with a bound on the number of shifts: the bytes it emits, oldest first, and the interval it
leaves (R94). With the bound `maxShifts` the bound never cuts the loop short. -/
def normaliseE : Nat → Interval → List Byte × Interval
  | 0, iv => ([], iv)
  | n + 1, iv =>
    if iv.settled then
      let r := normaliseE n iv.shift
      (topByte iv.high :: r.1, r.2)
    else ([], iv)

/-- `NormaliseD` with the same bound: the window it leaves and what is left of IN, or none if IN runs out (R94, R41). -/
def normaliseD : Nat → Window → List Byte → Option (Window × List Byte)
  | 0, win, inp => some (win, inp)
  | n + 1, win, inp =>
    if win.iv.settled then
      match inp with
      | [] => none
      | b :: rest => normaliseD n ⟨win.iv.shift, shiftCode win.code b⟩ rest
    else some (win, inp)

/-- One `encode(bit, p)` on an interval: narrow, then normalise (R97). -/
def encodeStep (iv : Interval) (p : Prob) (bit : Bool) : List Byte × Interval :=
  normaliseE maxShifts (narrow iv p bit)

/-- The bit a decoder reads: `1 if DCODE <= xmid else 0`, an unsigned comparison (R101, R131). -/
def decodedBit (win : Window) (p : Prob) : Bool :=
  decide (win.code.toNat ≤ (split win.iv.low win.iv.high p).toNat)

/-- One `decode(p)`: the bit, the window and what is left of IN, or none if IN runs out (R101). -/
def decodeStep (win : Window) (p : Prob) (inp : List Byte) : Option (Bool × Window × List Byte) :=
  let bit := decodedBit win p
  (normaliseD maxShifts { win with iv := narrow win.iv p bit } inp).map fun r => (bit, r.1, r.2)

end Sys2Proof.Machine
end

