-- ==== Sys2Proof/Machine/Ops.lean ====
section
/-! DEFINITION. The shared operations: responses, taking a fault and leaving the faulted state, the checks, the
streams, the register view, the tables, the predictor latch, the coder registers and the bit-tree. -/

namespace Sys2Proof.Machine

/-! ## Responses (R58) -/

/-- One response more on the response port (R39). -/
def State.answer (s : State) (err : Bool) (data : Word) : State := { s with resp := s.resp ++ [⟨err, data⟩] }

/-- `Respond(data)`: the command ends with `{0, data}` (R10, R58). -/
def respond (data : Word) (s : State) : Result := .next (s.answer false data)

/-! ## Faults (60_exceptions.md) and the way out of them -/

/-- The seven fault codes (R135). -/
inductive FaultCode where
  | illegal
  | seq
  | operand
  | empty
  | noVocab
  | zeroMass
  | div0
deriving DecidableEq, Repr

/-- The code of a fault (R135). -/
def FaultCode.code : FaultCode → BitVec 8
  | .illegal => 1
  | .seq => 2
  | .operand => 3
  | .empty => 4
  | .noVocab => 5
  | .zeroMass => 6
  | .div0 => 7

/-- The state a fault leaves: `FAULT` holds the code, the response is `{1, code}`, nothing else changes (R136). -/
def State.faulted (s : State) (c : FaultCode) : State :=
  ({ s with fault := c.code } : State).answer true (c.code.zeroExtend 32)

/-- Taking a fault, the block's only exception: `raise F_X` (R136). -/
def raise (c : FaultCode) (s : State) : Result := .next (s.faulted c)

/-- A command refused because the block is already faulted: `{1, FAULT}` and nothing else (R137). -/
def refuse (s : State) : Result := .next (s.answer true (s.fault.zeroExtend 32))

/-- Check 0 of R138: a faulted block refuses the command; otherwise it goes on. -/
def unlessFaulted (s : State) (k : Result) : Result := if s.fault = 0 then k else refuse s

/-- `require c else F_X` (R10). -/
def require (c : Prop) [Decidable c] (f : FaultCode) (s : State) (k : Result) : Result := if c then k else raise f s

/-- An illegal command (R56): refused on a faulted block (R137), else `F_ILLEGAL`. -/
def illegalCommand (s : State) : Result := unlessFaulted s (raise .illegal s)

/-- Every piece of state at its reset value, the streams untouched (R146, R126): the only exit from the faulted
state (R139). -/
def State.resetBlock (s : State) : State :=
  { State.reset with cmd := s.cmd, inp := s.inp, out := s.out, resp := s.resp }

/-! ## The streams (R40 to R42) -/

/-- `OutByte` for each byte, in order (R42). -/
def State.emit (s : State) (bs : List Byte) : State := { s with out := s.out ++ bs }

/-- A command that needs bytes of IN: it runs to its end, or holds with no effect at all (R41). -/
def orHold (r : Option Result) : Result :=
  match r with
  | some x => x
  | none => .fault .holdInput

/-! ## The register view (R16) -/

/-- The register at an index of R16, or none for an index not in the map. -/
def State.register (s : State) (r : Byte) : Option Word :=
  match r.toNat with
  | 0x00 => some identity
  | 0x01 => some s.status
  | 0x02 => some (s.node.zeroExtend 32)
  | 0x03 => some (s.plast.zeroExtend 32)
  | 0x04 => some (s.pnode.zeroExtend 32)
  | 0x05 => some (s.len.extractLsb' 0 32)
  | 0x06 => some ((s.len.extractLsb' 32 8).zeroExtend 32)
  | 0x07 => some (s.count.extractLsb' 0 32)
  | 0x08 => some ((s.count.extractLsb' 32 8).zeroExtend 32)
  | 0x09 => some (s.vsize.zeroExtend 32)
  | 0x0A => some s.elow
  | 0x0B => some s.ehigh
  | 0x0C => some s.dlow
  | 0x0D => some s.dhigh
  | 0x0E => some s.dcode
  | 0x0F => some s.rng
  | 0x10 => some (maskWord s.vmask 0)
  | 0x11 => some (maskWord s.vmask 1)
  | 0x12 => some (maskWord s.vmask 2)
  | 0x13 => some (maskWord s.vmask 3)
  | 0x14 => some (maskWord s.vmask 4)
  | 0x15 => some (maskWord s.vmask 5)
  | 0x16 => some (maskWord s.vmask 6)
  | 0x17 => some (maskWord s.vmask 7)
  | 0x18 => some (s.hacc.extractLsb' 0 32)
  | 0x19 => some (s.hacc.extractLsb' 32 32)
  | 0x1A => some (s.nsym.extractLsb' 0 32)
  | 0x1B => some ((s.nsym.extractLsb' 32 8).zeroExtend 32)
  | _ => none

/-! ## The tables (R24, R30) -/

/-- One entry of `FWD` or `INV`. -/
def readEntry (t : Vector Entry 256) (i : Nat) : Entry := t.getD i absentEntry

/-- `FWD[b]`. -/
def State.forward (s : State) (b : Byte) : Entry := readEntry s.fwd b.toNat

/-- `INV[i]`. -/
def State.inverse (s : State) (i : Nat) : Entry := readEntry s.inv i

/-- `DIST[i]`; 0 for an index the table does not have, which no command reads in a reachable state (log 8). -/
def State.mass (s : State) (i : Nat) : Mass := s.dist.getD i 0

/-- `DIST[0] .. DIST[VSIZE-1]`. -/
def State.masses (s : State) : List Mass := (List.range s.vsize.toNat).map s.mass

/-- An entry with bit 8 clear: a present value, or an index in use (R24). -/
def entryPresent (e : Entry) : Bool := !e.getLsbD 8

/-- What `BuildMap`'s first loop carries (R67). -/
structure MapLoop where
  idx : Nat
  fwd : Vector Entry 256
  inv : Vector Entry 256
deriving DecidableEq, Repr

/-- One pass of `BuildMap`'s first loop, for the byte value `v` (R67). -/
def mapStep (m : Mask) (a : MapLoop) (v : Nat) : MapLoop :=
  if m.getLsbD v then
    { idx := a.idx + 1
      fwd := a.fwd.setIfInBounds v (BitVec.ofNat 9 a.idx)
      inv := a.inv.setIfInBounds a.idx (BitVec.ofNat 9 v) }
  else { a with fwd := a.fwd.setIfInBounds v (absentEntry ||| BitVec.ofNat 9 a.idx) }

/-- `for v in 0..255 (ascending)` (R67). -/
def mapLoop (m : Mask) (fwd inv : Vector Entry 256) : MapLoop :=
  (List.range numValues).foldl (mapStep m) ⟨0, fwd, inv⟩

/-- `for i in idx..255: INV[i] <- 0x100` (R67). -/
def fillInv (idx : Nat) (inv : Vector Entry 256) : Vector Entry 256 :=
  (List.range' idx (numValues - idx)).foldl (fun t i => t.setIfInBounds i absentEntry) inv

/-- `BuildMap` (R67). -/
def State.buildMap (s : State) : State :=
  let a := mapLoop s.vmask s.fwd s.inv
  ({ s with fwd := a.fwd, inv := fillInv a.idx a.inv, vsize := BitVec.ofNat 9 a.idx } : State).mapBuilt

/-! ## The bit-tree walk (43_bittree.md) -/

/-- `NODE <- 1; BITCNT <- 0` (R79). -/
def State.treeReset (s : State) : State := { s with node := 1, bitcnt := 0 }

/-- `NODE <- 2*NODE + bit; BITCNT <- BITCNT + 1` (R80). -/
def State.treeStep (s : State) (bit : Bool) : State :=
  { s with node := 2 * s.node + (BitVec.ofBool bit).zeroExtend 9, bitcnt := s.bitcnt + 1 }

/-- The walk stands at the start of a byte: `NODE = 1` and `BITCNT = 0` (R98, R102). -/
abbrev State.atByteStart (s : State) : Prop := s.node = 1 ∧ s.bitcnt = 0

/-- The phases in which the bit-tree and predictor primitives are legal: `IDLE`, `ENC`, `DEC` (R78, R87). -/
abbrev State.inBitPhase (s : State) : Prop := s.phase = .idle ∨ s.phase = .enc ∨ s.phase = .dec

/-- The phases in which the sampler can be read: `TRAIN`, `GEN` (R115, R119). -/
abbrev State.inSamplerPhase (s : State) : Prop := s.phase = .train ∨ s.phase = .gen

/-! ## The predictor and its latch (44_predictor.md) -/

/-- `Clamp(PRED.predict(PSTATE, node))` (R84, R87). -/
def State.prediction (P : Pred) (s : State) (node : Node) : Prob := clamp (P.predict s.pstate node)

/-- `PLAST <- p; PNODE <- node` (R87, R98, R102). -/
def State.latch (s : State) (p : Prob) (node : Node) : State := { s with plast := p, pnode := node }

/-- `PSTATE <- PRED.observe(PSTATE, node, bit, p)` (R88). -/
def State.learn (P : Pred) (s : State) (node : Node) (bit : Bool) (p : Prob) : State :=
  { s with pstate := P.observe s.pstate node bit p }

/-! ## The coder registers (45_coder.md) -/

/-- The encoder's interval `[ELOW, EHIGH]` (R26). -/
def State.encInterval (s : State) : Interval := ⟨s.elow, s.ehigh⟩

/-- The decoder's interval and code window (R27). -/
def State.decWindow (s : State) : Window := ⟨⟨s.dlow, s.dhigh⟩, s.dcode⟩

/-- `Narrow(ELOW, EHIGH, p, bit); NormaliseE` (R97). -/
def State.encodeBit (s : State) (bit : Bool) (p : Prob) : State :=
  let r := encodeStep s.encInterval p bit
  ({ s with elow := r.2.low, ehigh := r.2.high } : State).emit r.1

/-- `xmid; bit; Narrow(DLOW, DHIGH, p, bit); NormaliseD`: the bit and the state, or none if IN runs out (R101). -/
def State.decodeBit (s : State) (p : Prob) : Option (Bool × State) :=
  (decodeStep s.decWindow p s.inp).map fun r =>
    (r.1, { s with dlow := r.2.1.iv.low, dhigh := r.2.1.iv.high, dcode := r.2.1.code, inp := r.2.2 })

/-- One iteration of `ENCB`'s loop (R98). -/
def State.encodeWalkStep (P : Pred) (s : State) (bit : Bool) : State :=
  let nb := s.node
  let p := s.prediction P nb
  (((s.latch p nb).encodeBit bit p).treeStep bit).learn P nb bit p

/-- `ENCB`'s loop over the bits of the byte (R98). -/
def State.encodeWalk (P : Pred) (s : State) (bits : List Bool) : State := bits.foldl (State.encodeWalkStep P) s

/-- One iteration of `DECB`'s loop, or none if IN runs out (R102). -/
def State.decodeWalkStep (P : Pred) (s : State) : Option State :=
  let nb := s.node
  let p := s.prediction P nb
  ((s.latch p nb).decodeBit p).map fun r => (r.2.treeStep r.1).learn P nb r.1 p

/-- `DECB`'s loop, `n` iterations (R102). -/
def State.decodeWalk (P : Pred) : Nat → State → Option State
  | 0, s => some s
  | n + 1, s => (s.decodeWalkStep P).bind (State.decodeWalk P n)

/-- The end of `ENCB` and `DECB`: `NODE <- 1; BITCNT <- 0; COUNT <- (COUNT + 1) mod 2^40; PLV <- 0` (R98, R102). -/
def State.endByte (s : State) : State := { s.treeReset with count := s.count + 1, plv := false }

/-- What `ESTART` and `DSTART` do besides their interval and phase: `NODE <- 1; BITCNT <- 0; COUNT <- 0; PLV <- 0`
(R96, R100). -/
def State.startPass (s : State) : State := { s.treeReset with count := 0, plv := false }

/-! ## The byte-level model (46_sampler.md) -/

/-- `(BSTATE, DIST) <- r`, each mass stored as `min(mass, 65536)`, over `VSIZE` symbols (R109). -/
def State.setModel (s : State) (r : ByteState × (Nat → Nat)) : State :=
  { s with bstate := r.1, dist := storedDist s.vsize.toNat r.2 }

/-- `(BSTATE, DIST) <- BMODEL.update(BSTATE, idx)` (R114, R118). -/
def State.updateModel (B : ByteModel) (s : State) (idx : Nat) : State := s.setModel (B.update s.bstate idx)

/-- The index `GENB` selects for the draw `r`: the scan's, or `VSIZE - 1` when the scan runs out (R118, U3). -/
def State.sampledIndex (s : State) (r : BitVec 16) : Nat := (scan s.masses r.toNat 0).getD (s.vsize.toNat - 1)

end Sys2Proof.Machine
end

