-- ==== Sys2Proof/Machine/BitTree.lean ====
section
/-! DEFINITION. The bit-tree walk commands (43_bittree.md). -/

namespace Sys2Proof.Machine

/-- `BTRST` (R79). -/
def execBtrst (s : State) : Result :=
  unlessFaulted s <|
  require s.inBitPhase .seq s <|
  respond 0 s.treeReset

/-- `BTSTEP bit`: responds the new `NODE` (R80). -/
def execBtstep (bit : Bool) (s : State) : Result :=
  unlessFaulted s <|
  require s.inBitPhase .seq s <|
  require (s.bitcnt.toNat < bitsPerByte) .seq s <|
  respond ((s.treeStep bit).node.zeroExtend 32) (s.treeStep bit)

end Sys2Proof.Machine
end

