-- ==== Sys2Proof/Machine/Coder.lean ====
section
/-! DEFINITION. The arithmetic coder commands (45_coder.md). The two composites are written for any instance `P`
of `PRED`; the command is the meaning at `Config.pred`. -/

namespace Sys2Proof.Machine

/-! ## Encoder -/

/-- `ESTART` (R96). -/
def execEstart (s : State) : Result :=
  unlessFaulted s <|
  require (s.phase = .idle) .seq s <|
  respond 0 { s.startPass with elow := wholeInterval.low, ehigh := wholeInterval.high, phase := .enc }

/-- `EBIT bit, p` (R97). -/
def execEbit (bit : Bool) (p : Prob) (s : State) : Result :=
  unlessFaulted s <|
  require (s.phase = .enc) .seq s <|
  require (probInRange p) .operand s <|
  respond 0 (s.encodeBit bit p)

/-- `ENCB b` for an instance of `PRED` (R98). -/
def execEncbWith (P : Pred) (b : Byte) (s : State) : Result :=
  unlessFaulted s <|
  require (s.phase = .enc) .seq s <|
  require (s.prv = true) .seq s <|
  require s.atByteStart .seq s <|
  respond 0 (s.encodeWalk P (byteBits b)).endByte

/-- `ENCB b` (R98). -/
def execEncb (b : Byte) (s : State) : Result := execEncbWith Config.pred b s

/-- `EFLUSH` (R99). -/
def execEflush (s : State) : Result :=
  unlessFaulted s <|
  require (s.phase = .enc) .seq s <|
  respond 0 { s.emit (wordBytes s.elow) with phase := .idle }

/-! ## Decoder -/

/-- `DSTART` after its checks, or none when IN has fewer than 4 bytes (R100). -/
def startDecoder (s : State) : Option Result :=
  (takeBytes flushBytes s.inp).map fun r =>
    respond 0 { s.startPass with
      dlow := wholeInterval.low
      dhigh := wholeInterval.high
      dcode := wordOfBytes r.1
      inp := r.2
      phase := .dec }

/-- `DSTART` (R100). -/
def execDstart (s : State) : Result :=
  unlessFaulted s <|
  require (s.phase = .idle) .seq s <|
  orHold (startDecoder s)

/-- `DBIT p`: responds the bit (R101). -/
def execDbit (p : Prob) (s : State) : Result :=
  unlessFaulted s <|
  require (s.phase = .dec) .seq s <|
  require (probInRange p) .operand s <|
  orHold ((s.decodeBit p).map fun r => respond ((BitVec.ofBool r.1).zeroExtend 32) r.2)

/-- The byte a finished walk holds, `NODE[7:0]` (R77, R102). -/
def walkedByte (s : State) : Byte := s.node.extractLsb' 0 8

/-- `DECB` for an instance of `PRED`: the byte goes to OUT and into the response (R102). -/
def execDecbWith (P : Pred) (s : State) : Result :=
  unlessFaulted s <|
  require (s.phase = .dec) .seq s <|
  require (s.prv = true) .seq s <|
  require s.atByteStart .seq s <|
  orHold ((State.decodeWalk P bitsPerByte s).map fun t =>
    respond ((walkedByte t).zeroExtend 32) (t.endByte.emit [walkedByte t]))

/-- `DECB` (R102). -/
def execDecb (s : State) : Result := execDecbWith Config.pred s

end Sys2Proof.Machine
end

