-- ==== Sys2Proof/Machine/Header.lean ====
section
/-! DEFINITION. The header codec commands (42_header.md). -/

namespace Sys2Proof.Machine

/-- `SETLEN n` (R73). -/
def execSetlen (hi8 : Byte) (ext : Word) (s : State) : Result :=
  unlessFaulted s <|
  require (s.phase = .idle) .seq s <|
  respond 0 { s with len := lenOperand hi8 ext }

/-- `HDRW` after its checks: the three cases by `LEN` (R74, R71). -/
def writeHeader (s : State) : Result :=
  if s.len = 0 then respond 0 (s.emit (lenBytes s.len)).maskChanged
  else if s.len.toNat < bitmapThreshold then
    respond 1 ({ s.emit (lenBytes s.len) with vmask := BitVec.allOnes 256 } : State).buildMap
  else respond 2 (s.emit (lenBytes s.len ++ bitmapOfMask s.vmask)).buildMap

/-- `HDRW` (R74). -/
def execHdrw (s : State) : Result :=
  unlessFaulted s <|
  require (s.phase = .idle) .seq s <|
  writeHeader s

/-- The end of `HDRR` when `L` and the bytes after the length field are known: the three cases by `L`; none when
the bitmap is not whole (R75). -/
def readHeaderRest (s : State) (l : Len) (rest : List Byte) : Option Result :=
  if l = 0 then some (respond 0 ({ s with len := l, inp := rest } : State).maskChanged)
  else if l.toNat < bitmapThreshold then
    some (respond 1 ({ s with len := l, inp := rest, vmask := BitVec.allOnes 256 } : State).buildMap)
  else
    (takeBytes bitmapBytes rest).map fun r =>
      respond 2 ({ s with len := l, inp := r.2, vmask := maskOfBitmap r.1 } : State).buildMap

/-- `HDRR` after its checks, or none when IN has too few bytes (R75, R41). -/
def readHeader (s : State) : Option Result :=
  (takeBytes lengthBytes s.inp).bind fun r => readHeaderRest s (lenOfBytes r.1) r.2

/-- `HDRR` (R75). -/
def execHdrr (s : State) : Result :=
  unlessFaulted s <|
  require (s.phase = .idle) .seq s <|
  orHold (readHeader s)

end Sys2Proof.Machine
end

