-- ==== Sys2Proof/Machine/Predictor.lean ====
section
/-! DEFINITION. The adaptive predictor commands (44_predictor.md). Each meaning is written for any instance `P` of
the open parameter `PRED`; the command is the meaning at `Config.pred`. -/

namespace Sys2Proof.Machine

/-- `PINIT` for an instance of `PRED` (R86). -/
def execPinitWith (P : Pred) (s : State) : Result :=
  unlessFaulted s <|
  require (s.phase = .idle) .seq s <|
  require (s.vmv = true) .seq s <|
  require (1 ≤ s.vsize.toNat) .empty s <|
  respond 0 { s with pstate := P.init s.vmask, prv := true, plv := false }

/-- `PPRED node` for an instance of `PRED`: responds the probability (R87). -/
def execPpredWith (P : Pred) (node : Node) (s : State) : Result :=
  unlessFaulted s <|
  require s.inBitPhase .seq s <|
  require (s.prv = true) .seq s <|
  require (nodeInRange node) .operand s <|
  respond ((s.prediction P node).zeroExtend 32) { s.latch (s.prediction P node) node with plv := true }

/-- `POBS node, bit` for an instance of `PRED` (R88). -/
def execPobsWith (P : Pred) (node : Node) (bit : Bool) (s : State) : Result :=
  unlessFaulted s <|
  require s.inBitPhase .seq s <|
  require (s.prv = true) .seq s <|
  require (s.plv = true) .seq s <|
  require (node = s.pnode) .operand s <|
  respond 0 { s.learn P node bit s.plast with plv := false }

/-- `PINIT` (R86). -/
def execPinit (s : State) : Result := execPinitWith Config.pred s

/-- `PPRED node` (R87). -/
def execPpred (node : Node) (s : State) : Result := execPpredWith Config.pred node s

/-- `POBS node, bit` (R88). -/
def execPobs (node : Node) (bit : Bool) (s : State) : Result := execPobsWith Config.pred node bit s

end Sys2Proof.Machine
end

