-- ==== Sys2Proof/Machine/Sampler.lean ====
section
/-! DEFINITION. The generative sampler commands (46_sampler.md). The three that use the byte-level model are
written for any instance `B` of `BMODEL`; the command is the meaning at `Config.bmodel`. -/

namespace Sys2Proof.Machine

/-- `SSTART` for an instance of `BMODEL` (R113). -/
def execSstartWith (B : ByteModel) (s : State) : Result :=
  unlessFaulted s <|
  require (s.phase = .idle) .seq s <|
  require (s.vmv = true) .seq s <|
  require (1 ≤ s.vsize.toNat) .empty s <|
  respond 0 { s.setModel (B.init s.vsize.toNat) with bmv := true, hacc := 0, nsym := 0, phase := .train }

/-- `SSTART` (R113). -/
def execSstart (s : State) : Result := execSstartWith Config.bmodel s

/-- The score of a mass: `sext_64(LOG2FX(q))` (R114). -/
def score (q : Mass) : BitVec 64 := BitVec.ofInt 64 (log2fx q.toNat)

/-- `TRAINB b` for an instance of `BMODEL`: score with the pre-update distribution, then update (R114). -/
def execTrainbWith (B : ByteModel) (b : Byte) (s : State) : Result :=
  unlessFaulted s <|
  require (s.phase = .train) .seq s <|
  require (entryPresent (s.forward b) = true) .noVocab s <|
  require (s.mass (s.forward b).toNat ≠ 0) .zeroMass s <|
  respond 0
    { s.updateModel B (s.forward b).toNat with
      hacc := s.hacc + score (s.mass (s.forward b).toNat)
      nsym := s.nsym + 1 }

/-- `TRAINB b` (R114). -/
def execTrainb (b : Byte) (s : State) : Result := execTrainbWith Config.bmodel b s

/-- `XENT` (R115). -/
def execXent (s : State) : Result :=
  unlessFaulted s <|
  require s.inSamplerPhase .seq s <|
  require (s.nsym ≠ 0) .div0 s <|
  respond (crossEntropy s.hacc s.nsym) s

/-- `SEED s`, legal in every phase (R116). -/
def execSeed (ext : Word) (s : State) : Result :=
  unlessFaulted s <|
  respond 0 { s with rng := ext, seeded := true }

/-- `GSTART` (R117). -/
def execGstart (s : State) : Result :=
  unlessFaulted s <|
  require (s.phase = .train) .seq s <|
  require (s.seeded = true) .seq s <|
  respond 0 { s with count := 0, phase := .gen }

/-- The index `GENB` samples: the draw is taken from the advanced generator (R112, R118). -/
def generatedIndex (s : State) : Nat := s.sampledIndex (drawOf (nextRng s.rng))

/-- The byte `GENB` emits, `INV[idx][7:0]` (R118). -/
def generatedByte (s : State) : Byte := (s.inverse (generatedIndex s)).extractLsb' 0 8

/-- `GENB` for an instance of `BMODEL`: the byte goes to OUT and into the response (R118). -/
def execGenbWith (B : ByteModel) (s : State) : Result :=
  unlessFaulted s <|
  require (s.phase = .gen) .seq s <|
  respond ((generatedByte s).zeroExtend 32)
    (({ s.updateModel B (generatedIndex s) with rng := nextRng s.rng, count := s.count + 1 } : State).emit
      [generatedByte s])

/-- `GENB` (R118). -/
def execGenb (s : State) : Result := execGenbWith Config.bmodel s

/-- `SDIST i` (R119). -/
def execSdist (i : Byte) (s : State) : Result :=
  unlessFaulted s <|
  require s.inSamplerPhase .seq s <|
  require (i.toNat < s.vsize.toNat) .operand s <|
  respond ((s.mass i.toNat).zeroExtend 32) s

end Sys2Proof.Machine
end

