-- ==== Sys2Proof/Machine/System.lean ====
section
/-! DEFINITION. The system commands (47_system.md). -/

namespace Sys2Proof.Machine

/-- `NOP` (R125). -/
def execNop (s : State) : Result := unlessFaulted s (respond 0 s)

/-- `SRESET`: legal in every phase and on a faulted block (R126). -/
def execSreset (s : State) : Result := respond 0 s.resetBlock

/-- `RDR r`: a mapped index is read also on a faulted block; an unmapped one is refused there and `F_OPERAND`
elsewhere (R127, R137). -/
def execRdr (r : Byte) (s : State) : Result :=
  match s.register r with
  | some v => respond v s
  | none => unlessFaulted s (raise .operand s)

/-- `STOP` (R128). -/
def execStop (s : State) : Result :=
  unlessFaulted s <|
  require (s.phase = .dec ∨ s.phase = .train ∨ s.phase = .gen) .seq s <|
  respond 0 { s with phase := .idle }

end Sys2Proof.Machine
end

