-- ==== Sys2Proof/Machine/VocabMap.lean ====
section
/-! DEFINITION. The VocabMap commands (41_vocabmap.md). -/

namespace Sys2Proof.Machine

/-- `VMCLR` (R63). -/
def execVmclr (s : State) : Result :=
  unlessFaulted s <|
  require (s.phase = .idle) .seq s <|
  respond 0 ({ s with vmask := 0 } : State).maskChanged

/-- `VMALL` (R64). -/
def execVmall (s : State) : Result :=
  unlessFaulted s <|
  require (s.phase = .idle) .seq s <|
  respond 0 ({ s with vmask := BitVec.allOnes 256 } : State).maskChanged

/-- `VMARK b` (R65). -/
def execVmark (b : Byte) (s : State) : Result :=
  unlessFaulted s <|
  require (s.phase = .idle) .seq s <|
  respond 0 ({ s with vmask := markValue s.vmask b } : State).maskChanged

/-- `SETMASK k, w` (R66). -/
def execSetmask (k : BitVec 3) (ext : Word) (s : State) : Result :=
  unlessFaulted s <|
  require (s.phase = .idle) .seq s <|
  respond 0 ({ s with vmask := setMaskWord s.vmask k ext } : State).maskChanged

/-- `VMBUILD`: responds `VSIZE` (R67). -/
def execVmbuild (s : State) : Result :=
  unlessFaulted s <|
  require (s.phase = .idle) .seq s <|
  respond (s.buildMap.vsize.zeroExtend 32) s.buildMap

/-- `VMFWD b`, legal in every phase (R68). -/
def execVmfwd (b : Byte) (s : State) : Result :=
  unlessFaulted s <|
  require (s.vmv = true) .seq s <|
  respond ((s.forward b).zeroExtend 32) s

/-- `VMINV i`, legal in every phase (R69). -/
def execVminv (i : Byte) (s : State) : Result :=
  unlessFaulted s <|
  require (s.vmv = true) .seq s <|
  respond ((s.inverse i.toNat).zeroExtend 32) s

end Sys2Proof.Machine
end

