-- ==== Sys2Proof/Machine/Dispatch.lean ====
section
/-! DEFINITION. What executing a command does: one arm per command of R55. -/

namespace Sys2Proof.Machine

def exec (i : Instr) (s : State) : Host.Outcome State Fault Refusal :=
  match i with
  | .nop => Sys2Proof.Machine.execNop s
  | .sreset => Sys2Proof.Machine.execSreset s
  | .rdr r => Sys2Proof.Machine.execRdr r s
  | .stop => Sys2Proof.Machine.execStop s
  | .vmclr => Sys2Proof.Machine.execVmclr s
  | .vmall => Sys2Proof.Machine.execVmall s
  | .vmark b => Sys2Proof.Machine.execVmark b s
  | .vmbuild => Sys2Proof.Machine.execVmbuild s
  | .vmfwd b => Sys2Proof.Machine.execVmfwd b s
  | .vminv idx => Sys2Proof.Machine.execVminv idx s
  | .hdrw => Sys2Proof.Machine.execHdrw s
  | .hdrr => Sys2Proof.Machine.execHdrr s
  | .estart => Sys2Proof.Machine.execEstart s
  | .ebit bit p => Sys2Proof.Machine.execEbit bit p s
  | .encb b => Sys2Proof.Machine.execEncb b s
  | .eflush => Sys2Proof.Machine.execEflush s
  | .dstart => Sys2Proof.Machine.execDstart s
  | .dbit p => Sys2Proof.Machine.execDbit p s
  | .decb => Sys2Proof.Machine.execDecb s
  | .pinit => Sys2Proof.Machine.execPinit s
  | .ppred node => Sys2Proof.Machine.execPpred node s
  | .pobs node bit => Sys2Proof.Machine.execPobs node bit s
  | .btrst => Sys2Proof.Machine.execBtrst s
  | .btstep bit => Sys2Proof.Machine.execBtstep bit s
  | .sstart => Sys2Proof.Machine.execSstart s
  | .trainb b => Sys2Proof.Machine.execTrainb b s
  | .xent => Sys2Proof.Machine.execXent s
  | .gstart => Sys2Proof.Machine.execGstart s
  | .genb => Sys2Proof.Machine.execGenb s
  | .sdist idx => Sys2Proof.Machine.execSdist idx s
  | .setmask k ext => Sys2Proof.Machine.execSetmask k ext s
  | .setlen hi8 ext => Sys2Proof.Machine.execSetlen hi8 ext s
  | .seed ext => Sys2Proof.Machine.execSeed ext s

end Sys2Proof.Machine
end

