-- ==== Sys2Proof/Machine/Step.lean ====
section
/-! DEFINITION. One step of the block: the execution of one whole command taken from the command port
(R7, R38, R57). -/

namespace Sys2Proof.Machine

/-- One command: take its words from the port and execute it; with no whole command there, hold (R57, R141).
The block refuses on a faulted block before it decodes (R57); here the refusal is check 0 of every command's
meaning and of the illegal command, which gives the same response for every word (log 11). -/
def step (s : State) : Host.Outcome State Fault Refusal :=
  match fetch s.cmd with
  | .noCommand => .fault .holdCommand
  | .noExtension => .fault .holdExtension
  | .illegal _ rest => illegalCommand { s with cmd := rest }
  | .command i rest => exec i { s with cmd := rest }

/-- The instruction's words at the head of the command port, ahead of what is there (log 1). -/
def State.withFetchWord (s : State) (nbits w : Nat) : State := { s with cmd := tableWords nbits w ++ s.cmd }

end Sys2Proof.Machine
end

