-- ==== Sys2Proof/Machine/Fixtures.lean ====
section
/-! DEFINITION. The spec's fixtures of the open parameters: concrete instances it defines "only so that its rules
can be run" (R13). The block's own `PRED` and `BMODEL` are the opaque ones of Config. How a fixture's state is
written as a list of naturals is log 15. -/

namespace Sys2Proof.Machine

/-- TP0, the constant predictor (R89). -/
def tp0 : Pred where
  init := fun _ => ⟨[]⟩
  predict := fun _ _ => 32768
  observe := fun st _ _ _ => st

/-- A cell of TP1's table `T[h][node]` as one number: its place, then its 16-bit value. -/
def tp1Cell (h : Nat) (node : Node) (t : Prob) : Nat := (h * 512 + node.toNat) * 65536 + t.toNat

/-- `T[h][node]`, 32768 until it is first written (R90). -/
def tp1Read (cells : List Nat) (h : Nat) (node : Node) : Prob :=
  match cells.find? fun c => c / 65536 == h * 512 + node.toNat with
  | some c => BitVec.ofNat 16 c
  | none => 32768

/-- The context `h` of a state of TP1: the mask comes first, then `h`, then the cells (log 15). -/
def tp1Row (st : PredState) : Nat := st.cells.getD 1 0

/-- `T[h][node]` of a state of TP1. -/
def tp1Entry (st : PredState) (h : Nat) (node : Node) : Prob := tp1Read (st.cells.drop 2) h node

/-- The new table entry (R90): the integer `t'`, written to a 16-bit entry. DESIGN CHOICE, log 17: where `t'` is
negative or above 65535, which takes a `p` that is not the entry `t` itself (R82 allows the call, R85 keeps the
block from it), R90 gives no value and the entry is free. -/
def tp1Next (t p : Prob) (bit : Bool) : Prob :=
  let t' : Int := if bit then t.toNat + ((65536 - p.toNat) >>> 4 : Nat) else t.toNat - (p.toNat >>> 4 : Nat)
  if 0 ≤ t' ∧ t' < 65536 then BitVec.ofInt 16 t' else Config.tp1Unstated t p bit

/-- The new context `h` (R90). -/
def tp1Context (m : Mask) (h : Nat) (node : Node) (bit : Bool) : Nat :=
  if 128 ≤ node.toNat then min (rank m ((2 * node.toNat + bit.toNat) % 256)) (rank m 256 - 1) else h

/-- TP1, the adaptive order-1 table (R90). Its state is the mask, `h`, and the cells written so far. -/
def tp1 : Pred where
  init := fun m => ⟨[m.toNat, 0]⟩
  predict := fun st node => tp1Entry st (tp1Row st) node
  observe := fun st node bit p =>
    match st.cells with
    | m :: h :: cells =>
      ⟨m :: tp1Context (BitVec.ofNat 256 m) h node bit :: tp1Cell h node (tp1Next (tp1Read cells h node) p bit) ::
        cells.filter fun c => !(c / 65536 == h * 512 + node.toNat)⟩
    | _ => st

/-- TB0, the static uniform model (R120). Its state remembers `V`, which R120's `update` uses. -/
def tb0 : ByteModel where
  init := fun v => (⟨[v]⟩, fun _ => 65536 / v)
  update := fun st _ => (st, fun _ => 65536 / st.cells.headD 1)

/-- TB1's distribution from its counts: `(65536 * c[i]) div tot` (R121). -/
def tb1Dist (counts : List Nat) (i : Nat) : Nat := 65536 * counts.getD i 0 / counts.sum

/-- TB1, adaptive counts (R121). Its state is the counts; their total is their sum. -/
def tb1 : ByteModel where
  init := fun v => (⟨List.replicate v 1⟩, tb1Dist (List.replicate v 1))
  update := fun st idx =>
    let c := st.cells.set idx (st.cells.getD idx 0 + 1)
    (⟨c⟩, tb1Dist c)

end Sys2Proof.Machine
end

