-- ==== Sys2Proof/Machine/HostPort.lean ====
section
/-! DEFINITION. What the environment can do to the block between steps (R148, 70_reset_and_hazards.md): present
command words, append to IN, take responses and OUT bytes, assert hardware reset. -/

namespace Sys2Proof.Machine

/-- The host writes one command word to the command port (R38). -/
def State.presentCommand (s : State) (w : Word) : State := { s with cmd := s.cmd ++ [w] }

/-- The host appends a byte to IN (R40, R41). -/
def State.appendIn (s : State) (b : Byte) : State := { s with inp := s.inp ++ [b] }

/-- The host takes the oldest byte of OUT (R40). -/
def State.takeOut (s : State) : Option (Byte × State) :=
  match s.out with
  | [] => none
  | b :: bs => some (b, { s with out := bs })

/-- The host takes the oldest response (R39). -/
def State.takeResponse (s : State) : Option (Response × State) :=
  match s.resp with
  | [] => none
  | r :: rs => some (r, { s with resp := rs })

/-- A command has been taken from the port and holds (R41, R54, R141). -/
def State.holding (s : State) : Bool :=
  match step s with
  | .fault .holdInput => true
  | .fault .holdExtension => true
  | _ => false

/-- The words of the command at the head of the port are gone (R146: "the held command is abandoned"). -/
def State.dropCommand (s : State) : State :=
  match fetch s.cmd with
  | .noCommand => s
  | .noExtension => { s with cmd := [] }
  | .illegal _ rest => { s with cmd := rest }
  | .command _ rest => { s with cmd := rest }

/-- Hardware reset: a held command is abandoned with no effect and no response, every piece of state takes its
reset value, the streams and the words not yet taken stay (R146; log 10). -/
def State.hardReset (s : State) : State := (if s.holding then s.dropCommand else s).resetBlock

end Sys2Proof.Machine
end

