-- ==== Sys2Proof/Machine/Procedures.lean ====
section
/-! DEFINITION. The pseudo-instructions of R60 and the host procedures of R106, R107 and R122, as the lists of
commands the host issues. -/

namespace Sys2Proof.Machine

/-- `VSCAN b1, ..., bn` (R60). -/
def vscan (bs : List Byte) : List Instr := bs.map .vmark

/-- `SETMASK256 w0, ..., w7` (R60). -/
def setmask256 (w : Fin 8 → Word) : List Instr := (List.finRange 8).map fun k => .setmask (BitVec.ofFin k) (w k)

/-- `ENCS b1, ..., bn` (R60). -/
def encs (bs : List Byte) : List Instr := bs.map .encb

/-- `DECS n` (R60). -/
def decs (n : Nat) : List Instr := List.replicate n .decb

/-- `GENS n` (R60). -/
def gens (n : Nat) : List Instr := List.replicate n .genb

/-- `EBITS (bit1,p1), ..., (bitn,pn)` (R60). -/
def ebits (bs : List (Bool × Prob)) : List Instr := bs.map fun b => .ebit b.1 b.2

/-- `SETLEN n` with its operand cut as R59 says: `hi8` = n[39:32], `ext` = n[31:0]. -/
def setLength (n : Len) : Instr := .setlen (n.extractLsb' 32 8) (n.extractLsb' 0 32)

/-- `COMPRESS b1, ..., bn`, the host procedure of R106 (R60). -/
def compressCommands (bs : List Byte) : List Instr :=
  let n := bs.length
  if n = 0 then [setLength 0, .hdrw]
  else
    (if bitmapThreshold ≤ n then .vmclr :: vscan bs else [])
      ++ [setLength (BitVec.ofNat 40 n), .hdrw, .pinit, .estart] ++ encs bs ++ [.eflush]

/-- Decompression after the host has read the header's length `n` (R107): the commands from `PINIT` on. -/
def decompressCommands (n : Nat) : List Instr := [.pinit, .dstart] ++ decs n ++ [.stop]

/-- Generation of `m` bytes from a sample with a seed (R122). -/
def generateCommands (sample : List Byte) (seed : Word) (m : Nat) : List Instr :=
  .vmclr :: vscan sample ++ [.vmbuild, .sstart] ++ sample.map .trainb ++ [.xent, .seed seed, .gstart]
    ++ gens m ++ [.stop]

/-- The walk of one byte with the primitive commands, encoding, when each prediction is answered by `p` (R77):
`PPRED`, `EBIT`, `BTSTEP`, `POBS` for a bit at a node. -/
def primitiveStep (node : Node) (bit : Bool) (p : Prob) : List Instr :=
  [.ppred node, .ebit bit p, .btstep bit, .pobs node bit]

end Sys2Proof.Machine
end

