-- ==== Sys2Proof/Safety.lean ====
section
/-! DEFINITION. Runs of several commands, and what holds of every state a run from reset can be in, in the terms
the statements use. -/

namespace Sys2Proof.Machine

/-! ## Runs -/

/-- Go on from the next state; a hold or a refusal ends the run. -/
def andThen (r : Result) (k : State → Result) : Result :=
  match r with
  | .next s => k s
  | .fault f => .fault f
  | .refused f => .refused f

/-- The commands of a list, each executed on the state the one before it left (R49). -/
def execAll : List Instr → State → Result
  | [], s => .next s
  | i :: is, s => andThen (exec i s) (execAll is)

/-- The data of the last response. -/
def State.lastData (s : State) : Word := (s.resp.getLast?.map Response.data).getD 0

/-- One decision of the walk with the primitive commands, encoding: `PPRED NODE`; `EBIT bit, p` with `p` the
`PPRED` response; `BTSTEP bit`; `POBS node_before, bit` (R77, R149 (d)). -/
def encodeDecision (bit : Bool) (s : State) : Result :=
  andThen (exec (.ppred s.node) s) fun t =>
    execAll [.ebit bit (t.lastData.setWidth 16), .btstep bit, .pobs s.node bit] t

/-- The same for decoding: `DBIT p` gives the bit (R77, R149 (d)). -/
def decodeDecision (s : State) : Result :=
  andThen (exec (.ppred s.node) s) fun t =>
    andThen (exec (.dbit (t.lastData.setWidth 16)) t) fun u =>
      execAll [.btstep (u.lastData.getLsbD 0), .pobs s.node (u.lastData.getLsbD 0)] u

/-- The 33 primitive commands of one byte, encoding (R98). -/
def encodeByteByPrimitives (b : Byte) (s : State) : Result :=
  andThen ((byteBits b).foldl (fun r bit => andThen r (encodeDecision bit)) (.next s)) (exec .btrst)

/-- The eight decisions of one byte with the primitive commands, decoding; the byte is then in `NODE[7:0]`, and `BTRST`
ends the walk (R102). -/
def decodeByteByPrimitives (s : State) : Result :=
  (List.range bitsPerByte).foldl (fun r _ => andThen r decodeDecision) (.next s)

/-! ## Which command is legal in which phase -/

/-- The phase table of R130: true is "yes". -/
def legalIn : Instr → Phase → Bool
  | .nop, _ | .sreset, _ | .rdr _, _ | .seed _, _ | .vmfwd _, _ | .vminv _, _ => true
  | .stop, p => p != .idle && p != .enc
  | .vmclr, p | .vmall, p | .vmark _, p | .setmask _ _, p | .vmbuild, p | .setlen _ _, p | .hdrw, p | .hdrr, p
  | .pinit, p | .estart, p | .dstart, p | .sstart, p => p == .idle
  | .ppred _, p | .pobs _ _, p | .btrst, p | .btstep _, p => p == .idle || p == .enc || p == .dec
  | .ebit _ _, p | .encb _, p | .eflush, p => p == .enc
  | .dbit _, p | .decb, p => p == .dec
  | .trainb _, p | .gstart, p => p == .train
  | .xent, p | .sdist _, p => p == .train || p == .gen
  | .genb, p => p == .gen

/-- The transitions of R129: the command, the phase it is legal from, the phase it goes to. -/
def phaseMove (i : Instr) (p q : Phase) : Prop :=
  (i = .estart ∧ p = .idle ∧ q = .enc) ∨ (i = .eflush ∧ p = .enc ∧ q = .idle) ∨
  (i = .dstart ∧ p = .idle ∧ q = .dec) ∨ (i = .sstart ∧ p = .idle ∧ q = .train) ∨
  (i = .gstart ∧ p = .train ∧ q = .gen) ∨
  (i = .stop ∧ (p = .dec ∨ p = .train ∨ p = .gen) ∧ q = .idle) ∨ (i = .sreset ∧ q = .idle)

/-! ## Invariants -/

/-- `FAULT` holds 0 or one of the seven codes (R135). -/
def State.faultKnown (s : State) : Prop := s.fault = 0 ∨ ∃ c : FaultCode, s.fault = c.code

/-- `2^BITCNT <= NODE < 2^(BITCNT+1)`, `BITCNT` 0 to 8 (R21). -/
def State.treeInRange (s : State) : Prop :=
  s.bitcnt.toNat ≤ 8 ∧ 2 ^ s.bitcnt.toNat ≤ s.node.toNat ∧ s.node.toNat < 2 ^ (s.bitcnt.toNat + 1)

/-- In `ENC`, `ELOW[31:24] < EHIGH[31:24]` (R26, R105). -/
def State.encoderOpen (s : State) : Prop :=
  s.phase = .enc → (topByte s.elow).toNat < (topByte s.ehigh).toNat

/-- In `DEC`, `DLOW[31:24] < DHIGH[31:24]` and `DLOW <= DCODE <= DHIGH` (R27, R105). -/
def State.decoderOpen (s : State) : Prop :=
  s.phase = .dec → (topByte s.dlow).toNat < (topByte s.dhigh).toNat ∧
    s.dlow.toNat ≤ s.dcode.toNat ∧ s.dcode.toNat ≤ s.dhigh.toNat

/-- With `PLV = 1` the latch holds the prediction of the current `PSTATE` for a node 1 to 255 (R85, R25). -/
def State.latchFresh (s : State) : Prop :=
  s.plv = true → s.prv = true ∧ nodeInRange s.pnode ∧ s.plast = s.prediction Config.pred s.pnode

/-- The content `FWD` has for a mask (R24): the index of a present value; `0x100 |` the number of present values
below an absent one. -/
def expectedForward (m : Mask) (v : Nat) : Nat := if m.getLsbD v then rank m v else 256 + rank m v

/-- The content `INV` has for a mask (R24): the value with index `i`, or 0x100. -/
def expectedInverse (m : Mask) (i : Nat) : Nat := (presentValues m).getD i 256

/-- The tables and the size are those of `VMASK` (R24). -/
def State.mapMatches (s : State) : Prop :=
  s.vsize.toNat = (presentValues s.vmask).length ∧
  (∀ b : Byte, (s.forward b).toNat = expectedForward s.vmask b.toNat) ∧
  (∀ i : Byte, (s.inverse i.toNat).toNat = expectedInverse s.vmask i.toNat)

/-- `VMV = 1` says the tables match `VMASK`; a predictor or byte model stands only beside a valid map of a
non-empty vocabulary; the sampler's phases have a byte model, whose masses are 0 to 65536, one for each index;
`GEN` has a seeded generator (R24, R29, R30, R32, R118). -/
def State.modelsMatch (s : State) : Prop :=
  (s.vmv = true → s.mapMatches) ∧
  (s.prv = true → s.vmv = true ∧ 1 ≤ s.vsize.toNat) ∧
  (s.bmv = true → s.vmv = true ∧ 1 ≤ s.vsize.toNat ∧ s.dist.length = s.vsize.toNat ∧
    ∀ q ∈ s.dist, q.toNat ≤ 65536) ∧
  (s.inSamplerPhase → s.bmv = true) ∧
  (s.phase = .gen → s.seeded = true)

/-- All of it. -/
def State.Inv (s : State) : Prop :=
  s.faultKnown ∧ s.treeInRange ∧ s.encoderOpen ∧ s.decoderOpen ∧ s.latchFresh ∧ s.modelsMatch

end Sys2Proof.Machine
end

