-- ==== Sys2Proof/Certificates/Slice0/Obligations.lean ====
section
/-! DEFINITION. The statements for the provers. `exec i s` is command `i` on state `s`; `s.answer err data` is `s`
with one response more; `s.faulted c` is `s` with `FAULT` at the code of `c` and the response `{1, code}`. -/

open Sys2Proof Sys2Proof.Machine

/-! ## Encoding and decoding (30_encoding.md) -/

/-- Decode of encode, for every command, every operand value and whatever words follow (R52, R53, R55, R57). -/
def Obligations.EveryCommandDecodesFromItsWords : Prop :=
  ∀ (i : Instr) (rest : List Word), fetch (encode i ++ rest) = .command i rest

/-- Encode of decode: a word that decodes holds nothing but its command's encoding (R52, R56). -/
def Obligations.DecodedWordsAreTheEncoding : Prop :=
  ∀ (w ext : Word) (i : Instr), decode w ext = .command i → encode i = if hasExtension w then [w, ext] else [w]

/-- "A first word w selects the command iff w & mask == match" (R55), and "At most one row matches" (R57): the
decoder and the table of masks agree on every word, and the row's word count is what bit 31 says. -/
def Obligations.FirstWordSelectsItsRow : Prop :=
  (∀ (w ext : Word) (i : Instr), decode w ext = .command i →
    ∃ row ∈ opcodeMap, row.selects w = true ∧ row.mnemonic = i.mnemonic ∧
      row.words = if hasExtension w then 2 else 1) ∧
  (∀ (w ext : Word) (row : OpRow), row ∈ opcodeMap → row.selects w = true →
    ∃ i, decode w ext = .command i ∧ row.mnemonic = i.mnemonic) ∧
  (∀ (w : Word) (r₁ r₂ : OpRow), r₁ ∈ opcodeMap → r₂ ∈ opcodeMap → r₁.selects w = true → r₂.selects w = true →
    r₁ = r₂)

/-- R56: a first word that matches no row raises `F_ILLEGAL`, and takes its extension word first if bit 31 is
set. -/
def Obligations.IllegalFirstWordFaults : Prop :=
  ∀ (s : State) (w : Word), s.fault = 0 → (∀ row ∈ opcodeMap, row.selects w = false) →
    (hasExtension w = false → ∀ rest, s.cmd = w :: rest →
      step s = .next (({ s with cmd := rest } : State).faulted .illegal)) ∧
    (hasExtension w = true → ∀ ext rest, s.cmd = w :: ext :: rest →
      step s = .next (({ s with cmd := rest } : State).faulted .illegal))

/-- One legal word of each family decodes to its command, one reserved bit more is illegal (95_test_vectors.md V0). -/
def Obligations.WrittenOutWordsDecode : Prop :=
  decode 0x0200001B 0 = .command (.rdr 0x1B) ∧ decode 0x12000061 0 = .command (.vmark 0x61) ∧
  decode 0x20000000 0 = .command .hdrw ∧ decode 0x31018000 0 = .command (.ebit true 0x8000) ∧
  decode 0x41001234 0 = .command (.dbit 0x1234) ∧ decode 0x510000FF 0 = .command (.ppred 0xFF) ∧
  decode 0x520002A0 0 = .command (.pobs 0xA0 true) ∧ decode 0x54000001 0 = .command (.btstep true) ∧
  decode 0x61000061 0 = .command (.trainb 0x61) ∧ decode 0x80000003 0x07FFFFFE = .command (.setmask 3 0x07FFFFFE) ∧
  decode 0x81000000 0x4E20 = .command (.setlen 0 0x4E20) ∧ decode 0x82000000 0x3039 = .command (.seed 0x3039) ∧
  decode 0x31020000 0 = .illegal .reservedBitSet ∧ decode 0x7F000000 0 = .illegal .unassignedOpcode

/-! ## The step (R7, R38, R57) and its holds -/

/-- A step runs the decoded command, in particular a command whose encoding is at the head of the port: what step
adds around exec is taking the command's words off the port. -/
def Obligations.StepRunsTheFetchedCommand : Prop :=
  (∀ (s : State) (i : Instr) (rest : List Word), fetch s.cmd = .command i rest →
    step s = exec i { s with cmd := rest }) ∧
  (∀ (s : State) (i : Instr) (rest : List Word), s.cmd = encode i ++ rest →
    step s = exec i { s with cmd := rest })

/-- R141, R54 (log 3): the step has no successor exactly while a word is missing, or in one of the four commands that read
IN; and it is never refused. -/
def Obligations.StepHoldsOnlyForWordsOrInput : Prop :=
  ∀ s : State,
    (step s = .fault .holdCommand ↔ s.cmd = []) ∧
    (step s = .fault .holdExtension ↔ ∃ w, s.cmd = [w] ∧ hasExtension w = true) ∧
    (step s = .fault .holdInput → s.fault = 0 ∧ ∃ i rest, fetch s.cmd = .command i rest ∧
      (i = .hdrr ∨ i = .dstart ∨ (∃ p, i = .dbit p) ∨ i = .decb)) ∧
    (∀ r, step s ≠ .refused r)

/-! ## Faults (60_exceptions.md) -/

/-- R137: on a faulted block every command but `SRESET` and a mapped `RDR` is refused, an illegal word too; a
mapped `RDR` answers, `SRESET` resets. -/
def Obligations.FaultedBlockRefuses : Prop :=
  ∀ s : State, s.fault ≠ 0 →
    (∀ i : Instr, i ≠ .sreset → (∀ r, i = .rdr r → 0x1B < r.toNat) →
      exec i s = .next (s.answer true (s.fault.zeroExtend 32))) ∧
    (∀ why rest, fetch s.cmd = .illegal why rest →
      step s = .next (({ s with cmd := rest } : State).answer true (s.fault.zeroExtend 32))) ∧
    (∀ r : Byte, r.toNat ≤ 0x1B → ∃ v, s.register r = some v ∧ exec (.rdr r) s = .next (s.answer false v)) ∧
    ∃ t : State, exec .sreset s = .next t ∧ t.fault = 0 ∧ t.phase = .idle ∧ t.resp = s.resp ++ [⟨false, 0⟩]

/-- R136: a command that faults changes `FAULT` and gives its response, and nothing else; in a step its words (and an
illegal word's) are taken from the port besides. -/
def Obligations.FaultsArePrecise : Prop :=
  (∀ (i : Instr) (s t : State), s.fault = 0 → exec i s = .next t → t.fault ≠ 0 →
    ∃ c : FaultCode, t = { s with fault := c.code, resp := s.resp ++ [⟨true, c.code.zeroExtend 32⟩] }) ∧
  (∀ s t : State, s.fault = 0 → step s = .next t → t.fault ≠ 0 → ∃ c : FaultCode,
    t = { s with cmd := t.cmd, fault := c.code, resp := s.resp ++ [⟨true, c.code.zeroExtend 32⟩] })

/-- R39: every command that ends gives exactly one response, after those before it. -/
def Obligations.EveryCommandEndsWithOneResponse : Prop :=
  ∀ s t : State, step s = .next t → ∃ r : Response, t.resp = s.resp ++ [r]

/-- R33: `FAULT` is written from 0 by the command that faults, which answers the code, and by the two resets, and by
nothing else. -/
def Obligations.FaultKeepsTheFirstCode : Prop :=
  (∀ s t : State, step s = .next t →
    t.fault = s.fault ∨
    (s.fault = 0 ∧ ∃ c : FaultCode, t.fault = c.code ∧ t.resp = s.resp ++ [⟨true, c.code.zeroExtend 32⟩]) ∨
    (t.fault = 0 ∧ ∃ rest, fetch s.cmd = .command .sreset rest)) ∧
  (∀ s t : State, (∃ rest, fetch s.cmd = .command .sreset rest) → step s = .next t → t.fault = 0) ∧
  (∀ s : State, s.hardReset.fault = 0)

/-- R53, R135: a command whose operand is out of the range its rule gives never has an effect. Which commands are
called ill-formed is the model's choice (log 14). The premise
`latchFresh` rules out a latched node no `PPRED` can leave; it is an invariant (`LatchHoldsTheFreshPrediction`). -/
def Obligations.IllFormedCommandsOnlyFault : Prop :=
  ∀ (i : Instr) (s : State), i.wellFormed = false → s.fault = 0 → s.latchFresh →
    exec i s = .next (s.faulted .seq) ∨ exec i s = .next (s.faulted .operand)

/-! ## The phase machine (47_system.md) -/

/-- R130: a command in a phase where the table has "-" raises `F_SEQ`, whatever its operands. -/
def Obligations.IllegalPhaseFaults : Prop :=
  ∀ (i : Instr) (s : State), s.fault = 0 → legalIn i s.phase = false → exec i s = .next (s.faulted .seq)

/-- R129: only the commands of the table write `PHASE`; one that does not fault goes where the table says, and in a
phase not listed for it a command of the table raises `F_SEQ` and changes nothing. -/
def Obligations.PhaseMovesOnlyByTheTable : Prop :=
  (∀ (i : Instr) (s t : State), exec i s = .next t → t.phase = s.phase ∨ phaseMove i s.phase t.phase) ∧
  (∀ (i : Instr) (s t : State) (q : Phase), exec i s = .next t → t.fault = 0 → phaseMove i s.phase q →
    t.phase = q) ∧
  (∀ s : State, s.hardReset.phase = .idle) ∧
  (∀ (i : Instr) (s : State), s.fault = 0 →
    (i = .estart ∨ i = .eflush ∨ i = .dstart ∨ i = .sstart ∨ i = .gstart ∨ i = .stop) →
    (∀ q, ¬phaseMove i s.phase q) → exec i s = .next (s.faulted .seq))

/-- R40, R105: a step removes only the oldest bytes of IN, only appends to OUT, and takes one or two command
words. -/
def Obligations.StreamsMoveOneWay : Prop :=
  ∀ s t : State, step s = .next t →
    (∃ used, s.inp = used ++ t.inp ∧ used.length ≤ 37) ∧ (∃ new, t.out = s.out ++ new ∧ new.length ≤ 37) ∧
    (∃ words, s.cmd = words ++ t.cmd ∧ 1 ≤ words.length ∧ words.length ≤ 2)

/-- R23, R62: while a pass is active no command but a reset changes the vocabulary, its map or the length. -/
def Obligations.VocabularyIsFixedDuringAPass : Prop :=
  ∀ (i : Instr) (s t : State), s.phase ≠ .idle → i ≠ .sreset → exec i s = .next t →
    t.vmask = s.vmask ∧ t.vsize = s.vsize ∧ t.fwd = s.fwd ∧ t.inv = s.inv ∧ t.vmv = s.vmv ∧ t.len = s.len

/-- R29, R30: the only writers of `PSTATE` and `BSTATE`; `PINIT` writes only in `IDLE`, and no command writes
both but a reset. -/
def Obligations.ModelStatesHaveTheirWriters : Prop :=
  ∀ (i : Instr) (s t : State), exec i s = .next t → i ≠ .sreset →
    (t.pstate = s.pstate ∨ (i = .pinit ∧ s.phase = .idle) ∨ (∃ n b, i = .pobs n b) ∨ (∃ b, i = .encb b) ∨
      i = .decb) ∧
    (t.bstate = s.bstate ∨ i = .sstart ∨ (∃ b, i = .trainb b) ∨ i = .genb)

/-! ## System commands -/

/-- R125: `NOP` answers 0 and changes nothing; on a faulted block it answers `{1, FAULT}`. -/
def Obligations.NopAnswersAndChangesNothing : Prop :=
  encode .nop = [0x00000000] ∧
  (∀ s : State, s.fault = 0 → exec .nop s = .next { s with resp := s.resp ++ [⟨false, 0⟩] }) ∧
  (∀ s : State, s.fault ≠ 0 → exec .nop s = .next { s with resp := s.resp ++ [⟨true, s.fault.zeroExtend 32⟩] })

/-- R126: `SRESET`, in every phase and on a faulted block, gives every piece of state its reset value and leaves
the streams. (`PSTATE` and `BSTATE` have no reset value in R35; the model's is its choice, log 6.) -/
def Obligations.SresetRestoresTheResetState : Prop :=
  encode .sreset = [0x01000000] ∧
  ∀ s : State, exec .sreset s = .next { State.reset with
    cmd := s.cmd, inp := s.inp, out := s.out, resp := s.resp ++ [⟨false, 0⟩] }

/-- R35: the reset values the spec gives. (`PSTATE` and `BSTATE` have none there: log 6. The streams are not the
block's: log 1, log 2.) -/
def Obligations.ResetValuesAreTheTable : Prop :=
  let s := State.reset
  s.phase = .idle ∧ s.fault = 0 ∧ s.vmv = false ∧ s.prv = false ∧ s.bmv = false ∧ s.plv = false ∧
  s.seeded = false ∧ s.node = 1 ∧ s.bitcnt = 0 ∧ s.plast = 0 ∧ s.pnode = 0 ∧ s.len = 0 ∧ s.count = 0 ∧
  s.nsym = 0 ∧ s.vmask = 0 ∧ s.vsize = 0 ∧ (∀ b, s.forward b = 0x100) ∧ (∀ i < 256, s.inverse i = 0x100) ∧
  s.elow = 0x00000000 ∧ s.dlow = 0x00000000 ∧ s.dcode = 0x00000000 ∧ s.ehigh = 0xFFFFFFFF ∧
  s.dhigh = 0xFFFFFFFF ∧ s.hacc = 0 ∧ s.rng = 0x00000000 ∧ s.dist = [] ∧ s.register 0 = some 0x4C435201

/-- R127 with the map of R16: `RDR` answers the register's value, zero-extended, on a faulted block too, and
changes nothing; an index above 0x1B raises `F_OPERAND`, or is refused on a faulted block. -/
def Obligations.RdrReadsTheRegisterMap : Prop :=
  (∀ r : Byte, encode (.rdr r) = [0x02000000 ||| r.zeroExtend 32]) ∧
  (∀ s : State, ∀ e ∈ ([(0x00, 0x4C435201), (0x01, s.status), (0x02, s.node.zeroExtend 32),
      (0x03, s.plast.zeroExtend 32), (0x04, s.pnode.zeroExtend 32), (0x05, s.len.setWidth 32),
      (0x06, (s.len >>> 32).setWidth 32), (0x07, s.count.setWidth 32), (0x08, (s.count >>> 32).setWidth 32),
      (0x09, s.vsize.zeroExtend 32), (0x0A, s.elow), (0x0B, s.ehigh), (0x0C, s.dlow), (0x0D, s.dhigh),
      (0x0E, s.dcode), (0x0F, s.rng), (0x10, s.vmask.setWidth 32), (0x11, (s.vmask >>> 32).setWidth 32),
      (0x12, (s.vmask >>> 64).setWidth 32), (0x13, (s.vmask >>> 96).setWidth 32),
      (0x14, (s.vmask >>> 128).setWidth 32), (0x15, (s.vmask >>> 160).setWidth 32),
      (0x16, (s.vmask >>> 192).setWidth 32), (0x17, (s.vmask >>> 224).setWidth 32),
      (0x18, s.hacc.setWidth 32), (0x19, (s.hacc >>> 32).setWidth 32), (0x1A, s.nsym.setWidth 32),
      (0x1B, (s.nsym >>> 32).setWidth 32)] : List (Byte × Word)),
    exec (.rdr e.1) s = .next (s.answer false e.2)) ∧
  (∀ (s : State) (r : Byte), 0x1B < r.toNat → s.fault = 0 → exec (.rdr r) s = .next (s.faulted .operand)) ∧
  (∀ (s : State) (r : Byte), 0x1B < r.toNat → s.fault ≠ 0 →
    exec (.rdr r) s = .next (s.answer true (s.fault.zeroExtend 32)))

/-- R18: the fields of `STATUS`, with the five codes of `PHASE`. -/
def Obligations.StatusAssemblesItsFields : Prop :=
  ∀ s : State,
    s.status.extractLsb' 0 3 = (match s.phase with | .idle => 0 | .enc => 1 | .dec => 2 | .train => 3 | .gen => 4) ∧
    s.status.getLsbD 3 = s.vmv ∧ s.status.getLsbD 4 = s.prv ∧ s.status.getLsbD 5 = s.bmv ∧ s.status.getLsbD 6 = s.plv ∧
    s.status.getLsbD 7 = s.seeded ∧ s.status.extractLsb' 8 8 = s.fault ∧ s.status.extractLsb' 16 4 = s.bitcnt ∧
    s.status.extractLsb' 20 12 = 0

/-- R128: `STOP` ends a decode, training or generation pass, and only those. -/
def Obligations.StopEndsThePass : Prop :=
  encode .stop = [0x03000000] ∧
  (∀ s : State, s.fault = 0 → (s.phase = .dec ∨ s.phase = .train ∨ s.phase = .gen) →
    exec .stop s = .next { s with phase := .idle, resp := s.resp ++ [⟨false, 0⟩] }) ∧
  (∀ s : State, s.fault = 0 → (s.phase = .idle ∨ s.phase = .enc) → exec .stop s = .next (s.faulted .seq))

/-! ## VocabMap (41_vocabmap.md) -/

/-- R63, R64: `VMCLR` and `VMALL` write the whole mask and clear the four flags; the tables stay. -/
def Obligations.VmclrAndVmallWriteTheWholeMask : Prop :=
  encode .vmclr = [0x10000000] ∧ encode .vmall = [0x11000000] ∧
  (∀ s : State, s.fault = 0 → s.phase = .idle →
    exec .vmclr s = .next { s with vmask := 0, vmv := false, prv := false, bmv := false, plv := false,
                                   resp := s.resp ++ [⟨false, 0⟩] } ∧
    exec .vmall s = .next { s with vmask := BitVec.allOnes 256, vmv := false, prv := false, bmv := false,
                                   plv := false, resp := s.resp ++ [⟨false, 0⟩] }) ∧
  (∀ s : State, s.fault = 0 → s.phase ≠ .idle →
    exec .vmclr s = .next (s.faulted .seq) ∧ exec .vmall s = .next (s.faulted .seq))

/-- R65: `VMARK b` sets bit `b` of the mask, no other bit, and clears the four flags. -/
def Obligations.VmarkSetsItsBit : Prop :=
  ∀ b : Byte, encode (.vmark b) = [0x12000000 ||| b.zeroExtend 32] ∧
    (∀ s : State, s.fault = 0 → s.phase = .idle → ∃ m : Mask,
      exec (.vmark b) s = .next { s with vmask := m, vmv := false, prv := false, bmv := false, plv := false,
                                         resp := s.resp ++ [⟨false, 0⟩] } ∧
      ∀ v : Nat, v < 256 → m.getLsbD v = (v == b.toNat || s.vmask.getLsbD v)) ∧
    (∀ s : State, s.fault = 0 → s.phase ≠ .idle → exec (.vmark b) s = .next (s.faulted .seq))

/-- R66: `SETMASK k, w` loads word `k` of the mask, leaves the other seven, and clears the four flags. -/
def Obligations.SetmaskReplacesItsWord : Prop :=
  ∀ (k : BitVec 3) (w : Word), encode (.setmask k w) = [0x80000000 ||| k.zeroExtend 32, w] ∧
    (∀ s : State, s.fault = 0 → s.phase = .idle → ∃ m : Mask,
      exec (.setmask k w) s = .next { s with vmask := m, vmv := false, prv := false, bmv := false, plv := false,
                                             resp := s.resp ++ [⟨false, 0⟩] } ∧
      ∀ v : Nat, v < 256 →
        m.getLsbD v = if v / 32 = k.toNat then w.getLsbD (v % 32) else s.vmask.getLsbD v) ∧
    (∀ s : State, s.fault = 0 → s.phase ≠ .idle → exec (.setmask k w) s = .next (s.faulted .seq))

/-- R67, R24: `VMBUILD` leaves the tables and the size of the mask, whatever they held before, sets `VMV`, clears
the other three flags and answers the size. -/
def Obligations.VmbuildBuildsTheMap : Prop :=
  encode .vmbuild = [0x13000000] ∧
  (∀ s : State, s.fault = 0 → s.phase = .idle → ∃ t : State, exec .vmbuild s = .next t ∧ t.mapMatches ∧
    t = { s with fwd := t.fwd, inv := t.inv, vsize := t.vsize, vmv := true, prv := false, bmv := false,
                 plv := false, resp := s.resp ++ [⟨false, t.vsize.zeroExtend 32⟩] }) ∧
  (∀ s : State, s.fault = 0 → s.phase ≠ .idle → exec .vmbuild s = .next (s.faulted .seq))

/-- R70 (a) to (e): after `BuildMap`, for every mask, the tables are inverse bijections that preserve order. -/
def Obligations.ByteMapIsAnOrderedBijection : Prop :=
  ∀ s : State, let t := s.buildMap
    t.vsize.toNat = (List.range 256).countP (fun v => s.vmask.getLsbD v) ∧
    (∀ v : Byte, s.vmask.getLsbD v.toNat = true →
      (t.forward v).toNat < t.vsize.toNat ∧ (t.inverse (t.forward v).toNat).toNat = v.toNat) ∧
    (∀ i : Nat, i < t.vsize.toNat →
      (t.inverse i).toNat < 256 ∧ s.vmask.getLsbD (t.inverse i).toNat = true ∧
      (t.forward ((t.inverse i).setWidth 8)).toNat = i) ∧
    (∀ u v : Byte, s.vmask.getLsbD u.toNat = true → s.vmask.getLsbD v.toNat = true → u.toNat < v.toNat →
      (t.forward u).toNat < (t.forward v).toNat) ∧
    (∀ v : Byte, ((t.forward v).setWidth 8).toNat = rank s.vmask v.toNat)

/-- R68, R69: `VMFWD` and `VMINV` answer the table entries in every phase; without a map they raise `F_SEQ`. -/
def Obligations.VmfwdAndVminvReadTheTables : Prop :=
  ∀ x : Byte, encode (.vmfwd x) = [0x14000000 ||| x.zeroExtend 32] ∧
    encode (.vminv x) = [0x15000000 ||| x.zeroExtend 32] ∧
    (∀ s : State, s.fault = 0 → s.vmv = true →
      exec (.vmfwd x) s = .next (s.answer false (s.fwd[x.toNat].zeroExtend 32)) ∧
      exec (.vminv x) s = .next (s.answer false (s.inv[x.toNat].zeroExtend 32))) ∧
    (∀ s : State, s.fault = 0 → s.vmv = true → s.mapMatches → ∃ f j : Word,
      exec (.vmfwd x) s = .next (s.answer false f) ∧ f.toNat = expectedForward s.vmask x.toNat ∧
      exec (.vminv x) s = .next (s.answer false j) ∧ j.toNat = expectedInverse s.vmask x.toNat) ∧
    (∀ s : State, s.fault = 0 → s.vmv = false →
      exec (.vmfwd x) s = .next (s.faulted .seq) ∧ exec (.vminv x) s = .next (s.faulted .seq))

/-! ## Header codec (42_header.md) -/

/-- R73: `SETLEN n` loads `hi8 * 2^32 + ext` into `LEN`. -/
def Obligations.SetlenLoadsTheLength : Prop :=
  ∀ (hi8 : Byte) (ext : Word), encode (.setlen hi8 ext) = [0x81000000 ||| hi8.zeroExtend 32, ext] ∧
    (∀ s : State, s.fault = 0 → s.phase = .idle →
      exec (.setlen hi8 ext) s =
        .next { s with len := BitVec.ofNat 40 (hi8.toNat * 2 ^ 32 + ext.toNat), resp := s.resp ++ [⟨false, 0⟩] }) ∧
    (∀ s : State, s.fault = 0 → s.phase ≠ .idle → exec (.setlen hi8 ext) s = .next (s.faulted .seq))

/-- R74: the three cases of `HDRW`: the bytes it appends, the mask it leaves, the map, the response. `buildMap` is
the step `BuildMap` of R67, stated in `VmbuildBuildsTheMap` and `ByteMapIsAnOrderedBijection`. -/
def Obligations.HdrwWritesTheHeader : Prop :=
  encode .hdrw = [0x20000000] ∧
  (∀ s : State, s.fault = 0 → s.phase = .idle →
    let field : List Byte := [(s.len >>> 32).setWidth 8, (s.len >>> 24).setWidth 8, (s.len >>> 16).setWidth 8,
      (s.len >>> 8).setWidth 8, s.len.setWidth 8]
    (s.len = 0 →
      exec .hdrw s = .next { s with out := s.out ++ field, vmv := false, prv := false, bmv := false, plv := false,
                                    resp := s.resp ++ [⟨false, 0⟩] }) ∧
    (0 < s.len.toNat → s.len.toNat < 10000 →
      exec .hdrw s = .next
        (({ s with out := s.out ++ field, vmask := BitVec.allOnes 256 } : State).buildMap.answer false 1)) ∧
    (10000 ≤ s.len.toNat → ∃ bitmap : List Byte, bitmap.length = 32 ∧
      (∀ i j : Nat, i < 32 → j < 8 → (bitmap.getD i 0).getLsbD j = s.vmask.getLsbD (8 * i + j)) ∧
      exec .hdrw s = .next (({ s with out := s.out ++ field ++ bitmap } : State).buildMap.answer false 2))) ∧
  (∀ s : State, s.fault = 0 → s.phase ≠ .idle → exec .hdrw s = .next (s.faulted .seq))

/-- R75: the three cases of `HDRR`, the bytes it removes, and the holds while IN is short of 5 or of 37 bytes. -/
def Obligations.HdrrReadsTheHeader : Prop :=
  encode .hdrr = [0x21000000] ∧
  (∀ (s : State) (b0 b1 b2 b3 b4 : Byte) (rest : List Byte), s.fault = 0 → s.phase = .idle →
    s.inp = b0 :: b1 :: b2 :: b3 :: b4 :: rest →
    let n := b0.toNat * 2 ^ 32 + b1.toNat * 2 ^ 24 + b2.toNat * 2 ^ 16 + b3.toNat * 2 ^ 8 + b4.toNat
    (n = 0 → exec .hdrr s = .next { s with inp := rest, len := 0, vmv := false, prv := false, bmv := false,
                                           plv := false, resp := s.resp ++ [⟨false, 0⟩] }) ∧
    (0 < n → n < 10000 → exec .hdrr s = .next
      (({ s with inp := rest, len := BitVec.ofNat 40 n, vmask := BitVec.allOnes 256 } : State).buildMap.answer
        false 1)) ∧
    (10000 ≤ n → rest.length < 32 → exec .hdrr s = .fault .holdInput) ∧
    (10000 ≤ n → ∀ bitmap rest' : List Byte, rest = bitmap ++ rest' → bitmap.length = 32 → ∃ m : Mask,
      (∀ i j : Nat, i < 32 → j < 8 → m.getLsbD (8 * i + j) = (bitmap.getD i 0).getLsbD j) ∧
      exec .hdrr s = .next
        (({ s with inp := rest', len := BitVec.ofNat 40 n, vmask := m } : State).buildMap.answer false 2))) ∧
  (∀ s : State, s.fault = 0 → s.phase = .idle → s.inp.length < 5 → exec .hdrr s = .fault .holdInput) ∧
  (∀ s : State, s.fault = 0 → s.phase ≠ .idle → exec .hdrr s = .next (s.faulted .seq))

/-- R76 (a): `HDRR` on what `HDRW` appended removes exactly it and leaves the same length, mask, map and response,
whatever the reading block held before. -/
def Obligations.HdrrInvertsHdrw : Prop :=
  ∀ (s t d : State) (header tail : List Byte), s.fault = 0 → s.phase = .idle → exec .hdrw s = .next t →
    t.out = s.out ++ header → d.fault = 0 → d.phase = .idle → d.inp = header ++ tail →
    ∃ e : State, exec .hdrr d = .next e ∧ e.inp = tail ∧ e.len = s.len ∧ e.lastData = t.lastData ∧
      e.vmv = t.vmv ∧ e.prv = false ∧ e.out = d.out ∧
      (s.len ≠ 0 → e.vmask = t.vmask ∧ e.vsize = t.vsize ∧ e.fwd = t.fwd ∧ e.inv = t.inv) ∧
      (s.len = 0 → e.vmask = d.vmask ∧ e.vsize = d.vsize ∧ e.fwd = d.fwd ∧ e.inv = d.inv)

/-! ## Bit-tree walk (43_bittree.md) -/

/-- R79, R80: `BTRST` and `BTSTEP`, with their checks. -/
def Obligations.BtrstAndBtstepMoveTheNode : Prop :=
  encode .btrst = [0x53000000] ∧
  (∀ bit : Bool, encode (.btstep bit) = [0x54000000 ||| (BitVec.ofBool bit).zeroExtend 32]) ∧
  (∀ s : State, s.fault = 0 → (s.phase = .idle ∨ s.phase = .enc ∨ s.phase = .dec) →
    exec .btrst s = .next { s with node := 1, bitcnt := 0, resp := s.resp ++ [⟨false, 0⟩] }) ∧
  (∀ (s : State) (bit : Bool), s.fault = 0 → (s.phase = .idle ∨ s.phase = .enc ∨ s.phase = .dec) →
    s.bitcnt.toNat < 8 → s.node.toNat < 2 ^ 8 →
    exec (.btstep bit) s = .next { s with
      node := BitVec.ofNat 9 (2 * s.node.toNat + bit.toNat), bitcnt := BitVec.ofNat 4 (s.bitcnt.toNat + 1),
      resp := s.resp ++ [⟨false, BitVec.ofNat 32 (2 * s.node.toNat + bit.toNat)⟩] }) ∧
  (∀ (s : State) (bit : Bool), s.fault = 0 → (s.phase = .idle ∨ s.phase = .enc ∨ s.phase = .dec) →
    8 ≤ s.bitcnt.toNat → exec (.btstep bit) s = .next (s.faulted .seq)) ∧
  (∀ (s : State) (bit : Bool), s.fault = 0 → (s.phase = .train ∨ s.phase = .gen) →
    exec .btrst s = .next (s.faulted .seq) ∧ exec (.btstep bit) s = .next (s.faulted .seq))

/-- R81 (a), (b), (c), (e): the nodes on the walk of a byte. -/
def Obligations.WalkFollowsTheTreePath : Prop :=
  (∀ (s : State) (b : Byte) (k : Nat), s.node = 1 → s.bitcnt = 0 → k ≤ 8 →
    let t := ((byteBits b).take k).foldl State.treeStep s
    t.node.toNat = 2 ^ k + b.toNat / 2 ^ (8 - k) ∧ t.bitcnt.toNat = k ∧
    2 ^ k ≤ t.node.toNat ∧ t.node.toNat < 2 ^ (k + 1)) ∧
  (∀ (b : Byte) (k : Nat), k < 8 → (byteBits b)[k]? = some (b.getLsbD (7 - k))) ∧
  (∀ (s : State) (b : Byte), s.node = 1 → s.bitcnt = 0 →
    ((byteBits b).foldl State.treeStep s).node.toNat = 256 + b.toNat ∧
    walkedByte ((byteBits b).foldl State.treeStep s) = b) ∧
  (∀ (b b' : Byte) (k k' : Nat), k ≤ 7 → k' ≤ 7 →
    (2 ^ k + b.toNat / 2 ^ (8 - k) = 2 ^ k' + b'.toNat / 2 ^ (8 - k') ↔
      k = k' ∧ b.toNat / 2 ^ (8 - k) = b'.toNat / 2 ^ (8 - k)))

/-- R21: "The invariant 2^BITCNT <= NODE < 2^(BITCNT+1) holds in every reachable state": every step keeps it. -/
def Obligations.TreePositionInvariant : Prop :=
  ∀ s t : State, s.treeInRange → step s = .next t → t.treeInRange

/-! ## Adaptive predictor (44_predictor.md), for the open parameter `PRED` -/

/-- R86: `PINIT`, with its checks in order. -/
def Obligations.PinitConstructsThePredictor : Prop :=
  encode .pinit = [0x50000000] ∧
  (∀ s : State, s.fault = 0 → s.phase = .idle → s.vmv = true → 1 ≤ s.vsize.toNat →
    exec .pinit s = .next { s with pstate := Config.predInit s.vmask, prv := true, plv := false,
                                   resp := s.resp ++ [⟨false, 0⟩] }) ∧
  (∀ s : State, s.fault = 0 → (s.phase ≠ .idle ∨ s.vmv = false) → exec .pinit s = .next (s.faulted .seq)) ∧
  (∀ s : State, s.fault = 0 → s.phase = .idle → s.vmv = true → s.vsize = 0 →
    exec .pinit s = .next (s.faulted .empty))

/-- R87 with the clamp of R84: `PPRED` answers and latches the probability, does not write `PSTATE`. -/
def Obligations.PpredLatchesThePrediction : Prop :=
  ∀ node : Node, encode (.ppred node) = [0x51000000 ||| node.zeroExtend 32] ∧
    (∀ s : State, s.fault = 0 → (s.phase = .idle ∨ s.phase = .enc ∨ s.phase = .dec) → s.prv = true →
      1 ≤ node.toNat → node.toNat ≤ 255 → ∃ p : Prob, p ≠ 0 ∧
      p = (if Config.predPredict s.pstate node = 0 then 1 else Config.predPredict s.pstate node) ∧
      exec (.ppred node) s = .next { s with plast := p, pnode := node, plv := true,
                                            resp := s.resp ++ [⟨false, p.zeroExtend 32⟩] }) ∧
    (∀ s : State, s.fault = 0 → (s.phase = .train ∨ s.phase = .gen ∨ s.prv = false) →
      exec (.ppred node) s = .next (s.faulted .seq)) ∧
    (∀ s : State, s.fault = 0 → (s.phase = .idle ∨ s.phase = .enc ∨ s.phase = .dec) → s.prv = true →
      (node.toNat = 0 ∨ 255 < node.toNat) → exec (.ppred node) s = .next (s.faulted .operand))

/-- R88: `POBS` passes the latched probability to the update and clears `PLV`. -/
def Obligations.PobsConsumesThePrediction : Prop :=
  ∀ (node : Node) (bit : Bool),
    encode (.pobs node bit) = [0x52000000 ||| ((BitVec.ofBool bit).zeroExtend 32 <<< 9) ||| node.zeroExtend 32] ∧
    (∀ s : State, s.fault = 0 → (s.phase = .idle ∨ s.phase = .enc ∨ s.phase = .dec) → s.prv = true →
      s.plv = true → node = s.pnode →
      exec (.pobs node bit) s = .next { s with pstate := Config.predObserve s.pstate node bit s.plast, plv := false,
                                               resp := s.resp ++ [⟨false, 0⟩] }) ∧
    (∀ s : State, s.fault = 0 → (s.phase = .train ∨ s.phase = .gen ∨ s.prv = false ∨ s.plv = false) →
      exec (.pobs node bit) s = .next (s.faulted .seq)) ∧
    (∀ s : State, s.fault = 0 → (s.phase = .idle ∨ s.phase = .enc ∨ s.phase = .dec) → s.prv = true →
      s.plv = true → node ≠ s.pnode → exec (.pobs node bit) s = .next (s.faulted .operand))

/-- R85: "at every POBS, PLAST = Clamp(PRED.predict(PSTATE, PNODE))": every step keeps it. -/
def Obligations.LatchHoldsTheFreshPrediction : Prop :=
  ∀ s t : State, s.latchFresh → step s = .next t → t.latchFresh

/-! ## Arithmetic coder (45_coder.md) -/

/-- R93: the split point, and that the two parts of `Narrow` are non-empty, disjoint and the whole interval. -/
def Obligations.SplitDividesTheInterval : Prop :=
  ∀ (iv : Interval) (p : Prob), iv.low.toNat < iv.high.toNat →
    let x := split iv.low iv.high p
    x.toNat = iv.low.toNat + (iv.high.toNat - iv.low.toNat) * p.toNat / 65536 ∧
    iv.low.toNat ≤ x.toNat ∧ x.toNat ≤ iv.high.toNat - 1 ∧
    narrow iv p true = ⟨iv.low, x⟩ ∧ (narrow iv p false).high = iv.high ∧
    (narrow iv p false).low.toNat = x.toNat + 1

/-- R94: on exit the top bytes differ, at most four bytes are emitted, the bound on the shifts never cuts the loop
short, and the decoder shifts exactly when the encoder does, holding iff IN is short. -/
def Obligations.NormaliseSettlesTheTopByte : Prop :=
  (∀ iv : Interval,
    (normaliseE 4 iv).1.length ≤ 4 ∧ topByte (normaliseE 4 iv).2.low ≠ topByte (normaliseE 4 iv).2.high ∧
    (∀ n, 4 ≤ n → normaliseE n iv = normaliseE 4 iv) ∧
    (iv.low.toNat ≤ iv.high.toNat →
      (topByte (normaliseE 4 iv).2.low).toNat < (topByte (normaliseE 4 iv).2.high).toNat)) ∧
  (∀ (win : Window) (inp : List Byte),
    (inp.length < (normaliseE 4 win.iv).1.length → normaliseD 4 win inp = none) ∧
    (∀ used rest, inp = used ++ rest → used.length = (normaliseE 4 win.iv).1.length → ∃ code,
      normaliseD 4 win inp = some (⟨(normaliseE 4 win.iv).2, code⟩, rest) ∧
      code.toNat = used.foldl (fun c b => (c * 256 + b.toNat) % 2 ^ 32) win.code.toNat))

/-- R96, R97, R99: `ESTART`, `EBIT` and `EFLUSH`, with their checks; `narrow` and `normaliseE` are the operations of
R93 and R94. -/
def Obligations.EncoderCommandsCodeBits : Prop :=
  encode .estart = [0x30000000] ∧ encode .eflush = [0x33000000] ∧
  (∀ (bit : Bool) (p : Prob),
    encode (.ebit bit p) = [0x31000000 ||| ((BitVec.ofBool bit).zeroExtend 32 <<< 16) ||| p.zeroExtend 32]) ∧
  (∀ s : State, s.fault = 0 → s.phase = .idle →
    exec .estart s = .next { s with elow := 0, ehigh := 0xFFFFFFFF, node := 1, bitcnt := 0, count := 0, plv := false,
                                    phase := .enc, resp := s.resp ++ [⟨false, 0⟩] }) ∧
  (∀ (s : State) (bit : Bool) (p : Prob), s.fault = 0 → s.phase = .enc → p ≠ 0 →
    let r := normaliseE 4 (narrow ⟨s.elow, s.ehigh⟩ p bit)
    exec (.ebit bit p) s = .next { s with elow := r.2.low, ehigh := r.2.high, out := s.out ++ r.1,
                                          resp := s.resp ++ [⟨false, 0⟩] }) ∧
  (∀ s : State, s.fault = 0 → s.phase = .enc →
    exec .eflush s = .next { s with
      out := s.out ++ [(s.elow >>> 24).setWidth 8, (s.elow >>> 16).setWidth 8, (s.elow >>> 8).setWidth 8,
        s.elow.setWidth 8],
      phase := .idle, resp := s.resp ++ [⟨false, 0⟩] }) ∧
  (∀ (s : State) (bit : Bool), s.fault = 0 → s.phase = .enc → exec (.ebit bit 0) s = .next (s.faulted .operand)) ∧
  (∀ s : State, s.fault = 0 → s.phase ≠ .idle → exec .estart s = .next (s.faulted .seq)) ∧
  (∀ (s : State) (bit : Bool) (p : Prob), s.fault = 0 → s.phase ≠ .enc →
    exec (.ebit bit p) s = .next (s.faulted .seq) ∧ exec .eflush s = .next (s.faulted .seq))

/-- R100, R101: `DSTART` and `DBIT`, with their checks and holds. -/
def Obligations.DecoderCommandsDecodeBits : Prop :=
  encode .dstart = [0x40000000] ∧ (∀ p : Prob, encode (.dbit p) = [0x41000000 ||| p.zeroExtend 32]) ∧
  (∀ (s : State) (b0 b1 b2 b3 : Byte) (rest : List Byte), s.fault = 0 → s.phase = .idle →
    s.inp = b0 :: b1 :: b2 :: b3 :: rest →
    exec .dstart s = .next { s with
      dlow := 0, dhigh := 0xFFFFFFFF,
      dcode := BitVec.ofNat 32 (b0.toNat * 2 ^ 24 + b1.toNat * 2 ^ 16 + b2.toNat * 2 ^ 8 + b3.toNat),
      node := 1, bitcnt := 0, count := 0, plv := false, phase := .dec, inp := rest,
      resp := s.resp ++ [⟨false, 0⟩] }) ∧
  (∀ s : State, s.fault = 0 → s.phase = .idle → s.inp.length < 4 → exec .dstart s = .fault .holdInput) ∧
  (∀ (s : State) (p : Prob), s.fault = 0 → s.phase = .dec → p ≠ 0 →
    let bit : Bool := decide (s.dcode.toNat ≤ (split s.dlow s.dhigh p).toNat)
    let r := normaliseE 4 (narrow ⟨s.dlow, s.dhigh⟩ p bit)
    (s.inp.length < r.1.length → exec (.dbit p) s = .fault .holdInput) ∧
    (∀ used rest, s.inp = used ++ rest → used.length = r.1.length →
      exec (.dbit p) s = .next { s with
        dlow := r.2.low, dhigh := r.2.high,
        dcode := used.foldl (fun c b => BitVec.ofNat 32 (c.toNat * 256 + b.toNat)) s.dcode,
        inp := rest, resp := s.resp ++ [⟨false, if bit then 1 else 0⟩] })) ∧
  (∀ s : State, s.fault = 0 → s.phase = .dec → exec (.dbit 0) s = .next (s.faulted .operand)) ∧
  (∀ s : State, s.fault = 0 → s.phase ≠ .idle → exec .dstart s = .next (s.faulted .seq)) ∧
  (∀ (s : State) (p : Prob), s.fault = 0 → s.phase ≠ .dec → exec (.dbit p) s = .next (s.faulted .seq))

/-- R98: `ENCB b` completes, and "has exactly the effect on state and on OUT of the 33 primitive commands PPRED,
EBIT, BTSTEP, POBS (eight times) and BTRST, plus the count", with one response of 0; its three checks. -/
def Obligations.EncbIsTheWalkOfPrimitives : Prop :=
  ∀ b : Byte, encode (.encb b) = [0x32000000 ||| b.zeroExtend 32] ∧
    (∀ s : State, s.fault = 0 → s.phase = .enc → s.prv = true → s.node = 1 → s.bitcnt = 0 →
      ∃ u : State, encodeByteByPrimitives b s = .next u ∧ u.fault = 0 ∧
        exec (.encb b) s = .next { u with count := s.count + 1, resp := s.resp ++ [⟨false, 0⟩] }) ∧
    (∀ s : State, s.fault = 0 → (s.phase ≠ .enc ∨ s.prv = false ∨ s.node ≠ 1 ∨ s.bitcnt ≠ 0) →
      exec (.encb b) s = .next (s.faulted .seq))

/-- R102: `DECB` has the effect of the eight decisions with the primitive commands and `BTRST`, plus the count; the
byte goes to OUT and into the response; it holds when and only when they do, and 32 bytes of IN are enough. -/
def Obligations.DecbIsTheWalkOfPrimitives : Prop :=
  encode .decb = [0x42000000] ∧
  (∀ s : State, s.fault = 0 → s.phase = .dec → s.prv = true → s.node = 1 → s.bitcnt = 0 →
    (match decodeByteByPrimitives s with
      | .next u => u.fault = 0 ∧ ∃ v : State, exec .btrst u = .next v ∧
          exec .decb s = .next { v with
            count := s.count + 1, out := s.out ++ [u.node.setWidth 8],
            resp := s.resp ++ [⟨false, (u.node.setWidth 8).setWidth 32⟩] }
      | .fault f => f = .holdInput ∧ exec .decb s = .fault .holdInput
      | .refused _ => False) ∧
    (32 ≤ s.inp.length → ∃ t, exec .decb s = .next t)) ∧
  (∀ s : State, s.fault = 0 → (s.phase ≠ .dec ∨ s.prv = false ∨ s.node ≠ 1 ∨ s.bitcnt ≠ 0) →
    exec .decb s = .next (s.faulted .seq))

/-- R105: the coder's windows stay open, and the code window stays inside, whatever bytes IN held. -/
def Obligations.CoderWindowsStayOpen : Prop :=
  ∀ s t : State, s.encoderOpen ∧ s.decoderOpen → step s = .next t → t.encoderOpen ∧ t.decoderOpen

/-- R104, the correctness law: `Decode(Encode(B,P), P) = B` for every bit sequence and every probability sequence
strictly inside (0,1); no command holds, and the decoder removes exactly what the encoder appended. -/
def Obligations.DecodeInvertsEncode : Prop :=
  ∀ (bits : List (Bool × Prob)) (s d : State), (∀ x ∈ bits, x.2 ≠ 0) →
    s.fault = 0 → s.phase = .idle → d.fault = 0 → d.phase = .idle →
    ∃ (t : State) (code : List Byte), execAll (.estart :: ebits bits ++ [.eflush]) s = .next t ∧
      t.fault = 0 ∧ t.phase = .idle ∧ t.out = s.out ++ code ∧
      ∀ tail, d.inp = code ++ tail → ∃ u : State,
        execAll (.dstart :: bits.map fun x => .dbit x.2) d = .next u ∧ u.fault = 0 ∧ u.inp = tail ∧
        u.resp = d.resp ++ ⟨false, 0⟩ :: bits.map fun x => ⟨false, if x.1 then 1 else 0⟩

/-- R108, the round-trip law: compression (R106) from reset, then decompression (R107) from reset with IN = the
first block's OUT, for every payload of 1 to 2^40 - 1 bytes and every `PRED`. -/
def Obligations.DecompressInvertsCompress : Prop :=
  ∀ payload : List Byte, 1 ≤ payload.length → payload.length ≤ 2 ^ 40 - 1 →
    ∃ t : State, execAll (compressCommands payload) State.reset = .next t ∧ t.fault = 0 ∧
    ∃ h : State, exec .hdrr { State.reset with inp := t.out } = .next h ∧ h.fault = 0 ∧
      h.len.toNat = payload.length ∧
    ∃ u : State, execAll (decompressCommands h.len.toNat) h = .next u ∧ u.fault = 0 ∧ u.out = payload ∧ u.inp = []

/-! ## Generative sampler (46_sampler.md), for the open parameter `BMODEL` -/

/-- R113, R116, R117: `SSTART`, `SEED` and `GSTART`, with their checks in order. -/
def Obligations.SamplerPassCommandsOpenPasses : Prop :=
  encode .sstart = [0x60000000] ∧ encode .gstart = [0x63000000] ∧
  (∀ ext : Word, encode (.seed ext) = [0x82000000, ext]) ∧
  (∀ s : State, s.fault = 0 → s.phase = .idle → s.vmv = true → 1 ≤ s.vsize.toNat → ∃ dist : List Mass,
    dist.length = s.vsize.toNat ∧
    (∀ i : Nat, i < s.vsize.toNat → (dist.getD i 0).toNat = min ((Config.byteInit s.vsize.toNat).2 i) 65536) ∧
    exec .sstart s = .next { s with bstate := (Config.byteInit s.vsize.toNat).1, dist := dist, bmv := true,
                                    hacc := 0, nsym := 0, phase := .train, resp := s.resp ++ [⟨false, 0⟩] }) ∧
  (∀ s : State, s.fault = 0 → (s.phase ≠ .idle ∨ s.vmv = false) → exec .sstart s = .next (s.faulted .seq)) ∧
  (∀ s : State, s.fault = 0 → s.phase = .idle → s.vmv = true → s.vsize = 0 →
    exec .sstart s = .next (s.faulted .empty)) ∧
  (∀ (s : State) (ext : Word), s.fault = 0 →
    exec (.seed ext) s = .next { s with rng := ext, seeded := true, resp := s.resp ++ [⟨false, 0⟩] }) ∧
  (∀ s : State, s.fault = 0 → s.phase = .train → s.seeded = true →
    exec .gstart s = .next { s with count := 0, phase := .gen, resp := s.resp ++ [⟨false, 0⟩] }) ∧
  (∀ s : State, s.fault = 0 → (s.phase ≠ .train ∨ s.seeded = false) → exec .gstart s = .next (s.faulted .seq))

/-- R114: `TRAINB` scores with the pre-update distribution, then updates; its checks in order. -/
def Obligations.TrainbScoresThenUpdates : Prop :=
  ∀ b : Byte, encode (.trainb b) = [0x61000000 ||| b.zeroExtend 32] ∧
    (∀ s : State, s.fault = 0 → s.phase = .train → (s.forward b).getLsbD 8 = false →
      s.mass (s.forward b).toNat ≠ 0 → ∃ dist : List Mass, dist.length = s.vsize.toNat ∧
      (∀ i : Nat, i < s.vsize.toNat →
        (dist.getD i 0).toNat = min ((Config.byteUpdate s.bstate (s.forward b).toNat).2 i) 65536) ∧
      exec (.trainb b) s = .next { s with
        hacc := s.hacc + BitVec.ofInt 64 (log2fx (s.mass (s.forward b).toNat).toNat),
        bstate := (Config.byteUpdate s.bstate (s.forward b).toNat).1, dist := dist, nsym := s.nsym + 1,
        resp := s.resp ++ [⟨false, 0⟩] }) ∧
    (∀ s : State, s.fault = 0 → s.phase ≠ .train → exec (.trainb b) s = .next (s.faulted .seq)) ∧
    (∀ s : State, s.fault = 0 → s.phase = .train → (s.forward b).getLsbD 8 = true →
      exec (.trainb b) s = .next (s.faulted .noVocab)) ∧
    (∀ s : State, s.fault = 0 → s.phase = .train → (s.forward b).getLsbD 8 = false →
      s.mass (s.forward b).toNat = 0 → exec (.trainb b) s = .next (s.faulted .zeroMass))

/-- R115, R119: `XENT` and `SDIST`. Where the quotient is negative or wider than the response, which R115 excludes
only before `NSYM` wraps, `XENT` still completes and its data is free (log 7). -/
def Obligations.XentAndSdistReport : Prop :=
  encode .xent = [0x62000000] ∧ (∀ i : Byte, encode (.sdist i) = [0x65000000 ||| i.zeroExtend 32]) ∧
  (∀ s : State, s.fault = 0 → (s.phase = .train ∨ s.phase = .gen) → s.nsym ≠ 0 → ∃ d : Word,
    exec .xent s = .next (s.answer false d) ∧
    (s.hacc.toInt ≤ 0 → -s.hacc.toInt / (s.nsym.toNat : Int) < 2 ^ 32 →
      (d.toNat : Int) = -s.hacc.toInt / (s.nsym.toNat : Int)) ∧
    (s.hacc.toInt ≤ 0 → -s.hacc.toInt ≤ 2 ^ 20 * (s.nsym.toNat : Int) → d.toNat ≤ 2 ^ 20)) ∧
  (∀ s : State, s.fault = 0 → (s.phase = .train ∨ s.phase = .gen) → s.nsym = 0 →
    exec .xent s = .next (s.faulted .div0)) ∧
  (∀ (s : State) (i : Byte), s.fault = 0 → (s.phase = .train ∨ s.phase = .gen) →
    (i.toNat < s.vsize.toNat → exec (.sdist i) s = .next (s.answer false ((s.mass i.toNat).zeroExtend 32))) ∧
    (s.vsize.toNat ≤ i.toNat → exec (.sdist i) s = .next (s.faulted .operand))) ∧
  (∀ (s : State) (i : Byte), s.fault = 0 → (s.phase = .idle ∨ s.phase = .enc ∨ s.phase = .dec) →
    exec .xent s = .next (s.faulted .seq) ∧ exec (.sdist i) s = .next (s.faulted .seq))

/-- R118: `GENB` draws once, selects the first index at which the cumulative mass exceeds the draw, or the last
index when none does, feeds it back, and emits the byte of `INV`. -/
def Obligations.GenbSamplesByInverseCdf : Prop :=
  encode .genb = [0x64000000] ∧
  (∀ s : State, s.fault = 0 → s.phase = .gen → 1 ≤ s.vsize.toNat →
    ∃ (rng : Word) (idx : Nat) (byte : Byte) (dist : List Mass),
      rng.toNat = (s.rng.toNat * 1664525 + 1013904223) % 2 ^ 32 ∧
      idx < s.vsize.toNat ∧
      (let sums (k : Nat) : Nat := (((List.range k).map fun j => (s.mass j).toNat).sum)
       let r := rng.toNat / 2 ^ 16
       (sums idx ≤ r ∧ r < sums (idx + 1)) ∨ (sums s.vsize.toNat ≤ r ∧ idx = s.vsize.toNat - 1)) ∧
      byte = (s.inverse idx).setWidth 8 ∧ dist.length = s.vsize.toNat ∧
      (∀ i : Nat, i < s.vsize.toNat → (dist.getD i 0).toNat = min ((Config.byteUpdate s.bstate idx).2 i) 65536) ∧
      exec .genb s = .next { s with
        rng := rng, bstate := (Config.byteUpdate s.bstate idx).1, dist := dist, count := s.count + 1,
        out := s.out ++ [byte], resp := s.resp ++ [⟨false, byte.zeroExtend 32⟩] }) ∧
  (∀ s : State, s.fault = 0 → s.phase ≠ .gen → exec .genb s = .next (s.faulted .seq))

/-- R111, R31: the logarithm lies in `[-2^20, 0]`, never exceeds the real one, is less than 1.0001 below it and is
non-decreasing; R111's table of values. -/
def Obligations.LogarithmIsBoundedBelowTheRealOne : Prop :=
  (∀ q : Nat, 1 ≤ q → q ≤ 65536 →
    -(2 ^ 20 : Int) ≤ log2fx q ∧ log2fx q ≤ 0 ∧
    -1.0001 < (log2fx q : ℝ) - 65536 * Real.logb 2 ((q : ℝ) / 65536) ∧
    (log2fx q : ℝ) - 65536 * Real.logb 2 ((q : ℝ) / 65536) ≤ 0) ∧
  (∀ q r : Nat, 1 ≤ q → q ≤ r → r ≤ 65536 → log2fx q ≤ log2fx r) ∧
  log2fx 65536 = 0 ∧ log2fx 32768 = -65536 ∧ log2fx 1 = -1048576 ∧ log2fx 2 = -983040 ∧ log2fx 3 = -944704 ∧
  log2fx 5 = -896407 ∧ log2fx 100 = -613165 ∧ log2fx 21845 = -103874 ∧ log2fx 43690 = -38338 ∧
  log2fx 49152 = -27200 ∧ log2fx 65535 = -2

/-- R24, R29, R30, R118: a valid map matches the mask, a model stands only beside a valid map of a non-empty
vocabulary, the sampler's phases have a model whose masses are 0 to 65536: every step keeps it. -/
def Obligations.ModelsMatchTheVocabulary : Prop :=
  ∀ s t : State, s.modelsMatch → step s = .next t → t.modelsMatch

/-- The reset state has every invariant of the statements above. -/
def Obligations.ResetStateHasTheInvariants : Prop := State.reset.Inv

/-- R123: "every generated byte is in the vocabulary (VMASK[byte] = 1)". -/
def Obligations.GeneratedBytesAreInTheVocabulary : Prop :=
  ∀ s : State, s.modelsMatch → s.fault = 0 → s.phase = .gen → ∃ (t : State) (byte : Byte),
    exec .genb s = .next t ∧ t.out = s.out ++ [byte] ∧ s.vmask.getLsbD byte.toNat = true

/-! ## Hardware reset (70_reset_and_hazards.md) and the fixtures -/

/-- R146: hardware reset gives every piece of state its reset value, abandons a command that holds with no effect
and no response, and leaves the streams and the words not yet taken. Which words are the held command's is the
model's reading (log 10), and the value `PSTATE` and `BSTATE` have after reset is its choice (log 6). -/
def Obligations.HardResetAbandonsTheHeldCommand : Prop :=
  (∀ s : State, ∃ cmd, s.hardReset = { State.reset with cmd := cmd, inp := s.inp, out := s.out, resp := s.resp }) ∧
  (∀ s : State, s.holding = false → s.hardReset.cmd = s.cmd) ∧
  (∀ (s : State) (w : Word), hasExtension w = true → s.cmd = [w] → s.hardReset.cmd = []) ∧
  (∀ (s : State) (i : Instr) (rest : List Word), fetch s.cmd = .command i rest → step s = .fault .holdInput →
    s.hardReset.cmd = rest)

/-- R89, R90, about the spec's fixtures: under TP0 `ENCB b` from the whole window emits the one byte `b XOR 0xFF`
and returns to it. TP1, told the probability it predicted: from `init` on every entry of its table, hence every
prediction, stays within 1 to 65535, so the clamp never acts; `observe` moves the entry `T[h][node]` by R90's
arithmetic, leaves every other entry, and moves `h` at the end of a byte only. (How a state of TP1 is written as a
list is log 15.) -/
def Obligations.PredictorFixturesBehave : Prop :=
  (∀ (s : State) (b : Byte), s.fault = 0 → s.phase = .enc → s.prv = true → s.node = 1 → s.bitcnt = 0 →
    s.elow = 0 → s.ehigh = 0xFFFFFFFF → ∃ t : State, execEncbWith tp0 b s = .next t ∧
    t.out = s.out ++ [b ^^^ 0xFF] ∧ t.elow = 0 ∧ t.ehigh = 0xFFFFFFFF ∧ t.pstate = s.pstate) ∧
  (let inRange (st : PredState) : Prop :=
     ∀ (h : Nat) (node : Node), 1 ≤ (tp1Entry st h node).toNat ∧ (tp1Entry st h node).toNat ≤ 65535
   (∀ m : Mask, inRange (tp1.init m) ∧ ∀ node : Node, tp1.predict (tp1.init m) node = 32768) ∧
   (∀ (st : PredState) (node : Node), inRange st →
     1 ≤ (tp1.predict st node).toNat ∧ (tp1.predict st node).toNat ≤ 65535 ∧
     clamp (tp1.predict st node) = tp1.predict st node) ∧
   (∀ (st : PredState) (node : Node) (bit : Bool), inRange st →
     inRange (tp1.observe st node bit (tp1.predict st node)))) ∧
  (∀ (m h : Nat) (cells : List Nat) (node : Node) (bit : Bool),
    let st : PredState := ⟨m :: h :: cells⟩
    let t := tp1.predict st node
    let st' := tp1.observe st node bit t
    1 ≤ t.toNat →
    (tp1Entry st' h node).toNat = (if bit then t.toNat + (65536 - t.toNat) / 16 else t.toNat - t.toNat / 16) ∧
    (∀ (h' : Nat) (node' : Node), h' ≠ h ∨ node' ≠ node → tp1Entry st' h' node' = tp1Entry st h' node') ∧
    (node.toNat < 128 → tp1Row st' = h) ∧
    (128 ≤ node.toNat → tp1Row st' =
      min (rank (BitVec.ofNat 256 m) ((2 * node.toNat + bit.toNat) % 256)) (rank (BitVec.ofNat 256 m) 256 - 1)))

/-- R120, R121, about the spec's fixtures: TB0's masses sum to `V*u`, which is 65536 only when `V` divides it;
TB1's are at most 65536 each and sum to at most 65536 and more than `65536 - V`. -/
def Obligations.ByteModelFixturesBehave : Prop :=
  (∀ v : Nat, 1 ≤ v → v ≤ 256 → ((List.range v).map (tb0.init v).2).sum = v * (65536 / v) ∧
    (((List.range v).map (tb0.init v).2).sum = 65536 ↔ v ∣ 65536)) ∧
  (∀ counts : List Nat, counts ≠ [] → (∀ c ∈ counts, 1 ≤ c) →
    (∀ i, tb1Dist counts i ≤ 65536) ∧
    ((List.range counts.length).map (tb1Dist counts)).sum ≤ 65536 ∧
    65536 < ((List.range counts.length).map (tb1Dist counts)).sum + counts.length)
end

