-- ==== Sys2Proof/Laws/Decode.lean ====
section
/-! SUPPORT. The fields of an encoded word, format by format (R52): the opcode, the reserved bits, the operands. -/

namespace Sys2Proof

theorem extract_bit {n : Nat} (w : BitVec n) (start len i : Nat) (h : i < len) :
    (w.extractLsb' start len).getLsbD i = w.getLsbD (start + i) := by
  simp [h]

/-! ### Format N -/

theorem opcode_formatN (op : Byte) : opcodeOf (op ++ 0#24 : Word) = op := by
  unfold opcodeOf
  apply BitVec.eq_of_getLsbD_eq
  intro i hi
  simp only [extract_bit _ _ _ i hi, BitVec.getLsbD_append]
  grind

theorem reserved_formatN (op : Byte) : ((op ++ 0#24 : Word)).extractLsb' 0 24 = 0 := by
  apply BitVec.eq_of_getLsbD_eq
  intro i hi
  simp only [extract_bit _ _ _ i hi, BitVec.getLsbD_append]
  grind

/-! ### Format B -/

theorem opcode_formatB (op : Byte) (x : Byte) : opcodeOf (op ++ 0#16 ++ x : Word) = op := by
  unfold opcodeOf
  apply BitVec.eq_of_getLsbD_eq
  intro i hi
  simp only [extract_bit _ _ _ i hi, BitVec.getLsbD_append]
  grind

theorem reserved_formatB (op : Byte) (x : Byte) : ((op ++ 0#16 ++ x : Word)).extractLsb' 8 16 = 0 := by
  apply BitVec.eq_of_getLsbD_eq
  intro i hi
  simp only [extract_bit _ _ _ i hi, BitVec.getLsbD_append]
  grind

theorem imm8_formatB (op : Byte) (x : Byte) : ((op ++ 0#16 ++ x : Word)).extractLsb' 0 8 = x := by
  apply BitVec.eq_of_getLsbD_eq
  intro i hi
  simp only [extract_bit _ _ _ i hi, BitVec.getLsbD_append]
  grind

/-! ### Format P -/

theorem opcode_formatP (op : Byte) (b : Bool) (p : Prob) : opcodeOf (op ++ 0#7 ++ BitVec.ofBool b ++ p : Word) = op := by
  unfold opcodeOf
  apply BitVec.eq_of_getLsbD_eq
  intro i hi
  simp only [extract_bit _ _ _ i hi, BitVec.getLsbD_append]
  grind

theorem reserved_formatP (op : Byte) (b : Bool) (p : Prob) : ((op ++ 0#7 ++ BitVec.ofBool b ++ p : Word)).extractLsb' 17 7 = 0 := by
  apply BitVec.eq_of_getLsbD_eq
  intro i hi
  simp only [extract_bit _ _ _ i hi, BitVec.getLsbD_append]
  grind

theorem p16_formatP (op : Byte) (b : Bool) (p : Prob) : ((op ++ 0#7 ++ BitVec.ofBool b ++ p : Word)).extractLsb' 0 16 = p := by
  apply BitVec.eq_of_getLsbD_eq
  intro i hi
  simp only [extract_bit _ _ _ i hi, BitVec.getLsbD_append]
  grind

theorem bit_formatP (op : Byte) (b : Bool) (p : Prob) : ((op ++ 0#7 ++ BitVec.ofBool b ++ p : Word)).getLsbD 16 = b := by
  simp only [BitVec.getLsbD_append]
  simp

/-! ### Format Q -/

theorem opcode_formatQ (op : Byte) (p : Prob) : opcodeOf (op ++ 0#8 ++ p : Word) = op := by
  unfold opcodeOf
  apply BitVec.eq_of_getLsbD_eq
  intro i hi
  simp only [extract_bit _ _ _ i hi, BitVec.getLsbD_append]
  grind

theorem reserved_formatQ (op : Byte) (p : Prob) : ((op ++ 0#8 ++ p : Word)).extractLsb' 16 8 = 0 := by
  apply BitVec.eq_of_getLsbD_eq
  intro i hi
  simp only [extract_bit _ _ _ i hi, BitVec.getLsbD_append]
  grind

theorem p16_formatQ (op : Byte) (p : Prob) : ((op ++ 0#8 ++ p : Word)).extractLsb' 0 16 = p := by
  apply BitVec.eq_of_getLsbD_eq
  intro i hi
  simp only [extract_bit _ _ _ i hi, BitVec.getLsbD_append]
  grind

/-! ### Format K -/

theorem opcode_formatK (op : Byte) (x : Node) : opcodeOf (op ++ 0#15 ++ x : Word) = op := by
  unfold opcodeOf
  apply BitVec.eq_of_getLsbD_eq
  intro i hi
  simp only [extract_bit _ _ _ i hi, BitVec.getLsbD_append]
  grind

theorem reserved_formatK (op : Byte) (x : Node) : ((op ++ 0#15 ++ x : Word)).extractLsb' 9 15 = 0 := by
  apply BitVec.eq_of_getLsbD_eq
  intro i hi
  simp only [extract_bit _ _ _ i hi, BitVec.getLsbD_append]
  grind

theorem node_formatK (op : Byte) (x : Node) : ((op ++ 0#15 ++ x : Word)).extractLsb' 0 9 = x := by
  apply BitVec.eq_of_getLsbD_eq
  intro i hi
  simp only [extract_bit _ _ _ i hi, BitVec.getLsbD_append]
  grind

/-! ### Format O -/

theorem opcode_formatO (op : Byte) (b : Bool) (x : Node) : opcodeOf (op ++ 0#14 ++ BitVec.ofBool b ++ x : Word) = op := by
  unfold opcodeOf
  apply BitVec.eq_of_getLsbD_eq
  intro i hi
  simp only [extract_bit _ _ _ i hi, BitVec.getLsbD_append]
  grind

theorem reserved_formatO (op : Byte) (b : Bool) (x : Node) : ((op ++ 0#14 ++ BitVec.ofBool b ++ x : Word)).extractLsb' 10 14 = 0 := by
  apply BitVec.eq_of_getLsbD_eq
  intro i hi
  simp only [extract_bit _ _ _ i hi, BitVec.getLsbD_append]
  grind

theorem node_formatO (op : Byte) (b : Bool) (x : Node) : ((op ++ 0#14 ++ BitVec.ofBool b ++ x : Word)).extractLsb' 0 9 = x := by
  apply BitVec.eq_of_getLsbD_eq
  intro i hi
  simp only [extract_bit _ _ _ i hi, BitVec.getLsbD_append]
  grind

theorem bit_formatO (op : Byte) (b : Bool) (x : Node) : ((op ++ 0#14 ++ BitVec.ofBool b ++ x : Word)).getLsbD 9 = b := by
  simp only [BitVec.getLsbD_append]
  simp

/-! ### Format T -/

theorem opcode_formatT (op : Byte) (b : Bool) : opcodeOf (op ++ 0#23 ++ BitVec.ofBool b : Word) = op := by
  unfold opcodeOf
  apply BitVec.eq_of_getLsbD_eq
  intro i hi
  simp only [extract_bit _ _ _ i hi, BitVec.getLsbD_append]
  grind

theorem reserved_formatT (op : Byte) (b : Bool) : ((op ++ 0#23 ++ BitVec.ofBool b : Word)).extractLsb' 1 23 = 0 := by
  apply BitVec.eq_of_getLsbD_eq
  intro i hi
  simp only [extract_bit _ _ _ i hi, BitVec.getLsbD_append]
  grind

theorem bit_formatT (op : Byte) (b : Bool) : ((op ++ 0#23 ++ BitVec.ofBool b : Word)).getLsbD 0 = b := by
  simp only [BitVec.getLsbD_append]
  simp

/-! ### Format XM -/

theorem opcode_formatXM (op : Byte) (k : BitVec 3) : opcodeOf (op ++ 0#21 ++ k : Word) = op := by
  unfold opcodeOf
  apply BitVec.eq_of_getLsbD_eq
  intro i hi
  simp only [extract_bit _ _ _ i hi, BitVec.getLsbD_append]
  grind

theorem reserved_formatXM (op : Byte) (k : BitVec 3) : ((op ++ 0#21 ++ k : Word)).extractLsb' 3 21 = 0 := by
  apply BitVec.eq_of_getLsbD_eq
  intro i hi
  simp only [extract_bit _ _ _ i hi, BitVec.getLsbD_append]
  grind

theorem k_formatXM (op : Byte) (k : BitVec 3) : ((op ++ 0#21 ++ k : Word)).extractLsb' 0 3 = k := by
  apply BitVec.eq_of_getLsbD_eq
  intro i hi
  simp only [extract_bit _ _ _ i hi, BitVec.getLsbD_append]
  grind

/-! ### A whole word of each format -/

theorem ifReservedZero_of_zero {w : Word} {lo : Nat} (h : w.extractLsb' lo (24 - lo) = 0) (i : Instr) :
    ifReservedZero w lo i = .command i := if_pos h

theorem formatN_word (op : Byte) (i : Instr) :
    formatN (op ++ 0#24) i = .command i := by
  rw [formatN, ifReservedZero_of_zero (reserved_formatN op)]

theorem formatB_word (op : Byte) (x : Byte) (mk : Byte → Instr) :
    formatB (op ++ 0#16 ++ x) mk = .command (mk x) := by
  rw [formatB, ifReservedZero_of_zero (reserved_formatB op x), imm8_formatB]

theorem formatP_word (op : Byte) (b : Bool) (p : Prob) (mk : Bool → Prob → Instr) :
    formatP (op ++ 0#7 ++ BitVec.ofBool b ++ p) mk = .command (mk b p) := by
  rw [formatP, ifReservedZero_of_zero (reserved_formatP op b p), bit_formatP, p16_formatP]

theorem formatQ_word (op : Byte) (p : Prob) (mk : Prob → Instr) :
    formatQ (op ++ 0#8 ++ p) mk = .command (mk p) := by
  rw [formatQ, ifReservedZero_of_zero (reserved_formatQ op p), p16_formatQ]

theorem formatK_word (op : Byte) (x : Node) (mk : Node → Instr) :
    formatK (op ++ 0#15 ++ x) mk = .command (mk x) := by
  rw [formatK, ifReservedZero_of_zero (reserved_formatK op x), node_formatK]

theorem formatO_word (op : Byte) (b : Bool) (x : Node) (mk : Node → Bool → Instr) :
    formatO (op ++ 0#14 ++ BitVec.ofBool b ++ x) mk = .command (mk x b) := by
  rw [formatO, ifReservedZero_of_zero (reserved_formatO op b x), node_formatO, bit_formatO]

theorem formatT_word (op : Byte) (b : Bool) (mk : Bool → Instr) :
    formatT (op ++ 0#23 ++ BitVec.ofBool b) mk = .command (mk b) := by
  rw [formatT, ifReservedZero_of_zero (reserved_formatT op b), bit_formatT]

theorem formatXM_word (op : Byte) (k : BitVec 3) (ext : Word) (mk : BitVec 3 → Word → Instr) :
    formatXM (op ++ 0#21 ++ k) ext mk = .command (mk k ext) := by
  rw [formatXM, ifReservedZero_of_zero (reserved_formatXM op k), k_formatXM]

theorem formatXL_word (op : Byte) (x : Byte) (ext : Word) (mk : Byte → Word → Instr) :
    formatXL (op ++ 0#16 ++ x) ext mk = .command (mk x ext) := by
  rw [formatXL, ifReservedZero_of_zero (reserved_formatB op x), imm8_formatB]

theorem formatXS_word (op : Byte) (ext : Word) (mk : Word → Instr) :
    formatXS (op ++ 0#24) ext mk = .command (mk ext) := by
  rw [formatXS, ifReservedZero_of_zero (reserved_formatN op)]

end Sys2Proof
end

