-- ==== Sys2Proof/Laws/State.lean ====
section
/-! SUPPORT. For each update of the state, what it does to each field: true by unfolding. -/

namespace Sys2Proof.Machine

/-! ### State.answer -/

@[simp] theorem State.answer_phase (s : State) (err : Bool) (data : Word) : (s.answer err data).phase = s.phase := rfl
@[simp] theorem State.answer_bitcnt (s : State) (err : Bool) (data : Word) : (s.answer err data).bitcnt = s.bitcnt := rfl
@[simp] theorem State.answer_count (s : State) (err : Bool) (data : Word) : (s.answer err data).count = s.count := rfl
@[simp] theorem State.answer_fault (s : State) (err : Bool) (data : Word) : (s.answer err data).fault = s.fault := rfl
@[simp] theorem State.answer_len (s : State) (err : Bool) (data : Word) : (s.answer err data).len = s.len := rfl
@[simp] theorem State.answer_vmask (s : State) (err : Bool) (data : Word) : (s.answer err data).vmask = s.vmask := rfl
@[simp] theorem State.answer_vsize (s : State) (err : Bool) (data : Word) : (s.answer err data).vsize = s.vsize := rfl
@[simp] theorem State.answer_fwd (s : State) (err : Bool) (data : Word) : (s.answer err data).fwd = s.fwd := rfl
@[simp] theorem State.answer_inv (s : State) (err : Bool) (data : Word) : (s.answer err data).inv = s.inv := rfl
@[simp] theorem State.answer_vmv (s : State) (err : Bool) (data : Word) : (s.answer err data).vmv = s.vmv := rfl
@[simp] theorem State.answer_node (s : State) (err : Bool) (data : Word) : (s.answer err data).node = s.node := rfl
@[simp] theorem State.answer_plast (s : State) (err : Bool) (data : Word) : (s.answer err data).plast = s.plast := rfl
@[simp] theorem State.answer_pnode (s : State) (err : Bool) (data : Word) : (s.answer err data).pnode = s.pnode := rfl
@[simp] theorem State.answer_plv (s : State) (err : Bool) (data : Word) : (s.answer err data).plv = s.plv := rfl
@[simp] theorem State.answer_elow (s : State) (err : Bool) (data : Word) : (s.answer err data).elow = s.elow := rfl
@[simp] theorem State.answer_ehigh (s : State) (err : Bool) (data : Word) : (s.answer err data).ehigh = s.ehigh := rfl
@[simp] theorem State.answer_dlow (s : State) (err : Bool) (data : Word) : (s.answer err data).dlow = s.dlow := rfl
@[simp] theorem State.answer_dhigh (s : State) (err : Bool) (data : Word) : (s.answer err data).dhigh = s.dhigh := rfl
@[simp] theorem State.answer_dcode (s : State) (err : Bool) (data : Word) : (s.answer err data).dcode = s.dcode := rfl
@[simp] theorem State.answer_pstate (s : State) (err : Bool) (data : Word) : (s.answer err data).pstate = s.pstate := rfl
@[simp] theorem State.answer_prv (s : State) (err : Bool) (data : Word) : (s.answer err data).prv = s.prv := rfl
@[simp] theorem State.answer_bstate (s : State) (err : Bool) (data : Word) : (s.answer err data).bstate = s.bstate := rfl
@[simp] theorem State.answer_dist (s : State) (err : Bool) (data : Word) : (s.answer err data).dist = s.dist := rfl
@[simp] theorem State.answer_bmv (s : State) (err : Bool) (data : Word) : (s.answer err data).bmv = s.bmv := rfl
@[simp] theorem State.answer_hacc (s : State) (err : Bool) (data : Word) : (s.answer err data).hacc = s.hacc := rfl
@[simp] theorem State.answer_nsym (s : State) (err : Bool) (data : Word) : (s.answer err data).nsym = s.nsym := rfl
@[simp] theorem State.answer_rng (s : State) (err : Bool) (data : Word) : (s.answer err data).rng = s.rng := rfl
@[simp] theorem State.answer_seeded (s : State) (err : Bool) (data : Word) : (s.answer err data).seeded = s.seeded := rfl
@[simp] theorem State.answer_cmd (s : State) (err : Bool) (data : Word) : (s.answer err data).cmd = s.cmd := rfl
@[simp] theorem State.answer_inp (s : State) (err : Bool) (data : Word) : (s.answer err data).inp = s.inp := rfl
@[simp] theorem State.answer_out (s : State) (err : Bool) (data : Word) : (s.answer err data).out = s.out := rfl
@[simp] theorem State.answer_resp (s : State) (err : Bool) (data : Word) : (s.answer err data).resp = s.resp ++ [⟨err, data⟩] := rfl

/-! ### State.faulted -/

@[simp] theorem State.faulted_phase (s : State) (c : FaultCode) : (s.faulted c).phase = s.phase := rfl
@[simp] theorem State.faulted_bitcnt (s : State) (c : FaultCode) : (s.faulted c).bitcnt = s.bitcnt := rfl
@[simp] theorem State.faulted_count (s : State) (c : FaultCode) : (s.faulted c).count = s.count := rfl
@[simp] theorem State.faulted_fault (s : State) (c : FaultCode) : (s.faulted c).fault = c.code := rfl
@[simp] theorem State.faulted_len (s : State) (c : FaultCode) : (s.faulted c).len = s.len := rfl
@[simp] theorem State.faulted_vmask (s : State) (c : FaultCode) : (s.faulted c).vmask = s.vmask := rfl
@[simp] theorem State.faulted_vsize (s : State) (c : FaultCode) : (s.faulted c).vsize = s.vsize := rfl
@[simp] theorem State.faulted_fwd (s : State) (c : FaultCode) : (s.faulted c).fwd = s.fwd := rfl
@[simp] theorem State.faulted_inv (s : State) (c : FaultCode) : (s.faulted c).inv = s.inv := rfl
@[simp] theorem State.faulted_vmv (s : State) (c : FaultCode) : (s.faulted c).vmv = s.vmv := rfl
@[simp] theorem State.faulted_node (s : State) (c : FaultCode) : (s.faulted c).node = s.node := rfl
@[simp] theorem State.faulted_plast (s : State) (c : FaultCode) : (s.faulted c).plast = s.plast := rfl
@[simp] theorem State.faulted_pnode (s : State) (c : FaultCode) : (s.faulted c).pnode = s.pnode := rfl
@[simp] theorem State.faulted_plv (s : State) (c : FaultCode) : (s.faulted c).plv = s.plv := rfl
@[simp] theorem State.faulted_elow (s : State) (c : FaultCode) : (s.faulted c).elow = s.elow := rfl
@[simp] theorem State.faulted_ehigh (s : State) (c : FaultCode) : (s.faulted c).ehigh = s.ehigh := rfl
@[simp] theorem State.faulted_dlow (s : State) (c : FaultCode) : (s.faulted c).dlow = s.dlow := rfl
@[simp] theorem State.faulted_dhigh (s : State) (c : FaultCode) : (s.faulted c).dhigh = s.dhigh := rfl
@[simp] theorem State.faulted_dcode (s : State) (c : FaultCode) : (s.faulted c).dcode = s.dcode := rfl
@[simp] theorem State.faulted_pstate (s : State) (c : FaultCode) : (s.faulted c).pstate = s.pstate := rfl
@[simp] theorem State.faulted_prv (s : State) (c : FaultCode) : (s.faulted c).prv = s.prv := rfl
@[simp] theorem State.faulted_bstate (s : State) (c : FaultCode) : (s.faulted c).bstate = s.bstate := rfl
@[simp] theorem State.faulted_dist (s : State) (c : FaultCode) : (s.faulted c).dist = s.dist := rfl
@[simp] theorem State.faulted_bmv (s : State) (c : FaultCode) : (s.faulted c).bmv = s.bmv := rfl
@[simp] theorem State.faulted_hacc (s : State) (c : FaultCode) : (s.faulted c).hacc = s.hacc := rfl
@[simp] theorem State.faulted_nsym (s : State) (c : FaultCode) : (s.faulted c).nsym = s.nsym := rfl
@[simp] theorem State.faulted_rng (s : State) (c : FaultCode) : (s.faulted c).rng = s.rng := rfl
@[simp] theorem State.faulted_seeded (s : State) (c : FaultCode) : (s.faulted c).seeded = s.seeded := rfl
@[simp] theorem State.faulted_cmd (s : State) (c : FaultCode) : (s.faulted c).cmd = s.cmd := rfl
@[simp] theorem State.faulted_inp (s : State) (c : FaultCode) : (s.faulted c).inp = s.inp := rfl
@[simp] theorem State.faulted_out (s : State) (c : FaultCode) : (s.faulted c).out = s.out := rfl
@[simp] theorem State.faulted_resp (s : State) (c : FaultCode) : (s.faulted c).resp = s.resp ++ [⟨true, c.code.zeroExtend 32⟩] := rfl

/-! ### State.emit -/

@[simp] theorem State.emit_phase (s : State) (bs : List Byte) : (s.emit bs).phase = s.phase := rfl
@[simp] theorem State.emit_bitcnt (s : State) (bs : List Byte) : (s.emit bs).bitcnt = s.bitcnt := rfl
@[simp] theorem State.emit_count (s : State) (bs : List Byte) : (s.emit bs).count = s.count := rfl
@[simp] theorem State.emit_fault (s : State) (bs : List Byte) : (s.emit bs).fault = s.fault := rfl
@[simp] theorem State.emit_len (s : State) (bs : List Byte) : (s.emit bs).len = s.len := rfl
@[simp] theorem State.emit_vmask (s : State) (bs : List Byte) : (s.emit bs).vmask = s.vmask := rfl
@[simp] theorem State.emit_vsize (s : State) (bs : List Byte) : (s.emit bs).vsize = s.vsize := rfl
@[simp] theorem State.emit_fwd (s : State) (bs : List Byte) : (s.emit bs).fwd = s.fwd := rfl
@[simp] theorem State.emit_inv (s : State) (bs : List Byte) : (s.emit bs).inv = s.inv := rfl
@[simp] theorem State.emit_vmv (s : State) (bs : List Byte) : (s.emit bs).vmv = s.vmv := rfl
@[simp] theorem State.emit_node (s : State) (bs : List Byte) : (s.emit bs).node = s.node := rfl
@[simp] theorem State.emit_plast (s : State) (bs : List Byte) : (s.emit bs).plast = s.plast := rfl
@[simp] theorem State.emit_pnode (s : State) (bs : List Byte) : (s.emit bs).pnode = s.pnode := rfl
@[simp] theorem State.emit_plv (s : State) (bs : List Byte) : (s.emit bs).plv = s.plv := rfl
@[simp] theorem State.emit_elow (s : State) (bs : List Byte) : (s.emit bs).elow = s.elow := rfl
@[simp] theorem State.emit_ehigh (s : State) (bs : List Byte) : (s.emit bs).ehigh = s.ehigh := rfl
@[simp] theorem State.emit_dlow (s : State) (bs : List Byte) : (s.emit bs).dlow = s.dlow := rfl
@[simp] theorem State.emit_dhigh (s : State) (bs : List Byte) : (s.emit bs).dhigh = s.dhigh := rfl
@[simp] theorem State.emit_dcode (s : State) (bs : List Byte) : (s.emit bs).dcode = s.dcode := rfl
@[simp] theorem State.emit_pstate (s : State) (bs : List Byte) : (s.emit bs).pstate = s.pstate := rfl
@[simp] theorem State.emit_prv (s : State) (bs : List Byte) : (s.emit bs).prv = s.prv := rfl
@[simp] theorem State.emit_bstate (s : State) (bs : List Byte) : (s.emit bs).bstate = s.bstate := rfl
@[simp] theorem State.emit_dist (s : State) (bs : List Byte) : (s.emit bs).dist = s.dist := rfl
@[simp] theorem State.emit_bmv (s : State) (bs : List Byte) : (s.emit bs).bmv = s.bmv := rfl
@[simp] theorem State.emit_hacc (s : State) (bs : List Byte) : (s.emit bs).hacc = s.hacc := rfl
@[simp] theorem State.emit_nsym (s : State) (bs : List Byte) : (s.emit bs).nsym = s.nsym := rfl
@[simp] theorem State.emit_rng (s : State) (bs : List Byte) : (s.emit bs).rng = s.rng := rfl
@[simp] theorem State.emit_seeded (s : State) (bs : List Byte) : (s.emit bs).seeded = s.seeded := rfl
@[simp] theorem State.emit_cmd (s : State) (bs : List Byte) : (s.emit bs).cmd = s.cmd := rfl
@[simp] theorem State.emit_inp (s : State) (bs : List Byte) : (s.emit bs).inp = s.inp := rfl
@[simp] theorem State.emit_out (s : State) (bs : List Byte) : (s.emit bs).out = s.out ++ bs := rfl
@[simp] theorem State.emit_resp (s : State) (bs : List Byte) : (s.emit bs).resp = s.resp := rfl

/-! ### State.maskChanged -/

@[simp] theorem State.maskChanged_phase (s : State) : s.maskChanged.phase = s.phase := rfl
@[simp] theorem State.maskChanged_bitcnt (s : State) : s.maskChanged.bitcnt = s.bitcnt := rfl
@[simp] theorem State.maskChanged_count (s : State) : s.maskChanged.count = s.count := rfl
@[simp] theorem State.maskChanged_fault (s : State) : s.maskChanged.fault = s.fault := rfl
@[simp] theorem State.maskChanged_len (s : State) : s.maskChanged.len = s.len := rfl
@[simp] theorem State.maskChanged_vmask (s : State) : s.maskChanged.vmask = s.vmask := rfl
@[simp] theorem State.maskChanged_vsize (s : State) : s.maskChanged.vsize = s.vsize := rfl
@[simp] theorem State.maskChanged_fwd (s : State) : s.maskChanged.fwd = s.fwd := rfl
@[simp] theorem State.maskChanged_inv (s : State) : s.maskChanged.inv = s.inv := rfl
@[simp] theorem State.maskChanged_vmv (s : State) : s.maskChanged.vmv = false := rfl
@[simp] theorem State.maskChanged_node (s : State) : s.maskChanged.node = s.node := rfl
@[simp] theorem State.maskChanged_plast (s : State) : s.maskChanged.plast = s.plast := rfl
@[simp] theorem State.maskChanged_pnode (s : State) : s.maskChanged.pnode = s.pnode := rfl
@[simp] theorem State.maskChanged_plv (s : State) : s.maskChanged.plv = false := rfl
@[simp] theorem State.maskChanged_elow (s : State) : s.maskChanged.elow = s.elow := rfl
@[simp] theorem State.maskChanged_ehigh (s : State) : s.maskChanged.ehigh = s.ehigh := rfl
@[simp] theorem State.maskChanged_dlow (s : State) : s.maskChanged.dlow = s.dlow := rfl
@[simp] theorem State.maskChanged_dhigh (s : State) : s.maskChanged.dhigh = s.dhigh := rfl
@[simp] theorem State.maskChanged_dcode (s : State) : s.maskChanged.dcode = s.dcode := rfl
@[simp] theorem State.maskChanged_pstate (s : State) : s.maskChanged.pstate = s.pstate := rfl
@[simp] theorem State.maskChanged_prv (s : State) : s.maskChanged.prv = false := rfl
@[simp] theorem State.maskChanged_bstate (s : State) : s.maskChanged.bstate = s.bstate := rfl
@[simp] theorem State.maskChanged_dist (s : State) : s.maskChanged.dist = s.dist := rfl
@[simp] theorem State.maskChanged_bmv (s : State) : s.maskChanged.bmv = false := rfl
@[simp] theorem State.maskChanged_hacc (s : State) : s.maskChanged.hacc = s.hacc := rfl
@[simp] theorem State.maskChanged_nsym (s : State) : s.maskChanged.nsym = s.nsym := rfl
@[simp] theorem State.maskChanged_rng (s : State) : s.maskChanged.rng = s.rng := rfl
@[simp] theorem State.maskChanged_seeded (s : State) : s.maskChanged.seeded = s.seeded := rfl
@[simp] theorem State.maskChanged_cmd (s : State) : s.maskChanged.cmd = s.cmd := rfl
@[simp] theorem State.maskChanged_inp (s : State) : s.maskChanged.inp = s.inp := rfl
@[simp] theorem State.maskChanged_out (s : State) : s.maskChanged.out = s.out := rfl
@[simp] theorem State.maskChanged_resp (s : State) : s.maskChanged.resp = s.resp := rfl

/-! ### State.mapBuilt -/

@[simp] theorem State.mapBuilt_phase (s : State) : s.mapBuilt.phase = s.phase := rfl
@[simp] theorem State.mapBuilt_bitcnt (s : State) : s.mapBuilt.bitcnt = s.bitcnt := rfl
@[simp] theorem State.mapBuilt_count (s : State) : s.mapBuilt.count = s.count := rfl
@[simp] theorem State.mapBuilt_fault (s : State) : s.mapBuilt.fault = s.fault := rfl
@[simp] theorem State.mapBuilt_len (s : State) : s.mapBuilt.len = s.len := rfl
@[simp] theorem State.mapBuilt_vmask (s : State) : s.mapBuilt.vmask = s.vmask := rfl
@[simp] theorem State.mapBuilt_vsize (s : State) : s.mapBuilt.vsize = s.vsize := rfl
@[simp] theorem State.mapBuilt_fwd (s : State) : s.mapBuilt.fwd = s.fwd := rfl
@[simp] theorem State.mapBuilt_inv (s : State) : s.mapBuilt.inv = s.inv := rfl
@[simp] theorem State.mapBuilt_vmv (s : State) : s.mapBuilt.vmv = true := rfl
@[simp] theorem State.mapBuilt_node (s : State) : s.mapBuilt.node = s.node := rfl
@[simp] theorem State.mapBuilt_plast (s : State) : s.mapBuilt.plast = s.plast := rfl
@[simp] theorem State.mapBuilt_pnode (s : State) : s.mapBuilt.pnode = s.pnode := rfl
@[simp] theorem State.mapBuilt_plv (s : State) : s.mapBuilt.plv = false := rfl
@[simp] theorem State.mapBuilt_elow (s : State) : s.mapBuilt.elow = s.elow := rfl
@[simp] theorem State.mapBuilt_ehigh (s : State) : s.mapBuilt.ehigh = s.ehigh := rfl
@[simp] theorem State.mapBuilt_dlow (s : State) : s.mapBuilt.dlow = s.dlow := rfl
@[simp] theorem State.mapBuilt_dhigh (s : State) : s.mapBuilt.dhigh = s.dhigh := rfl
@[simp] theorem State.mapBuilt_dcode (s : State) : s.mapBuilt.dcode = s.dcode := rfl
@[simp] theorem State.mapBuilt_pstate (s : State) : s.mapBuilt.pstate = s.pstate := rfl
@[simp] theorem State.mapBuilt_prv (s : State) : s.mapBuilt.prv = false := rfl
@[simp] theorem State.mapBuilt_bstate (s : State) : s.mapBuilt.bstate = s.bstate := rfl
@[simp] theorem State.mapBuilt_dist (s : State) : s.mapBuilt.dist = s.dist := rfl
@[simp] theorem State.mapBuilt_bmv (s : State) : s.mapBuilt.bmv = false := rfl
@[simp] theorem State.mapBuilt_hacc (s : State) : s.mapBuilt.hacc = s.hacc := rfl
@[simp] theorem State.mapBuilt_nsym (s : State) : s.mapBuilt.nsym = s.nsym := rfl
@[simp] theorem State.mapBuilt_rng (s : State) : s.mapBuilt.rng = s.rng := rfl
@[simp] theorem State.mapBuilt_seeded (s : State) : s.mapBuilt.seeded = s.seeded := rfl
@[simp] theorem State.mapBuilt_cmd (s : State) : s.mapBuilt.cmd = s.cmd := rfl
@[simp] theorem State.mapBuilt_inp (s : State) : s.mapBuilt.inp = s.inp := rfl
@[simp] theorem State.mapBuilt_out (s : State) : s.mapBuilt.out = s.out := rfl
@[simp] theorem State.mapBuilt_resp (s : State) : s.mapBuilt.resp = s.resp := rfl

/-! ### State.buildMap -/

@[simp] theorem State.buildMap_phase (s : State) : s.buildMap.phase = s.phase := rfl
@[simp] theorem State.buildMap_bitcnt (s : State) : s.buildMap.bitcnt = s.bitcnt := rfl
@[simp] theorem State.buildMap_count (s : State) : s.buildMap.count = s.count := rfl
@[simp] theorem State.buildMap_fault (s : State) : s.buildMap.fault = s.fault := rfl
@[simp] theorem State.buildMap_len (s : State) : s.buildMap.len = s.len := rfl
@[simp] theorem State.buildMap_vmask (s : State) : s.buildMap.vmask = s.vmask := rfl
@[simp] theorem State.buildMap_vsize (s : State) : s.buildMap.vsize = BitVec.ofNat 9 (mapLoop s.vmask s.fwd s.inv).idx := rfl
@[simp] theorem State.buildMap_fwd (s : State) : s.buildMap.fwd = (mapLoop s.vmask s.fwd s.inv).fwd := rfl
@[simp] theorem State.buildMap_inv (s : State) : s.buildMap.inv = fillInv (mapLoop s.vmask s.fwd s.inv).idx (mapLoop s.vmask s.fwd s.inv).inv := rfl
@[simp] theorem State.buildMap_vmv (s : State) : s.buildMap.vmv = true := rfl
@[simp] theorem State.buildMap_node (s : State) : s.buildMap.node = s.node := rfl
@[simp] theorem State.buildMap_plast (s : State) : s.buildMap.plast = s.plast := rfl
@[simp] theorem State.buildMap_pnode (s : State) : s.buildMap.pnode = s.pnode := rfl
@[simp] theorem State.buildMap_plv (s : State) : s.buildMap.plv = false := rfl
@[simp] theorem State.buildMap_elow (s : State) : s.buildMap.elow = s.elow := rfl
@[simp] theorem State.buildMap_ehigh (s : State) : s.buildMap.ehigh = s.ehigh := rfl
@[simp] theorem State.buildMap_dlow (s : State) : s.buildMap.dlow = s.dlow := rfl
@[simp] theorem State.buildMap_dhigh (s : State) : s.buildMap.dhigh = s.dhigh := rfl
@[simp] theorem State.buildMap_dcode (s : State) : s.buildMap.dcode = s.dcode := rfl
@[simp] theorem State.buildMap_pstate (s : State) : s.buildMap.pstate = s.pstate := rfl
@[simp] theorem State.buildMap_prv (s : State) : s.buildMap.prv = false := rfl
@[simp] theorem State.buildMap_bstate (s : State) : s.buildMap.bstate = s.bstate := rfl
@[simp] theorem State.buildMap_dist (s : State) : s.buildMap.dist = s.dist := rfl
@[simp] theorem State.buildMap_bmv (s : State) : s.buildMap.bmv = false := rfl
@[simp] theorem State.buildMap_hacc (s : State) : s.buildMap.hacc = s.hacc := rfl
@[simp] theorem State.buildMap_nsym (s : State) : s.buildMap.nsym = s.nsym := rfl
@[simp] theorem State.buildMap_rng (s : State) : s.buildMap.rng = s.rng := rfl
@[simp] theorem State.buildMap_seeded (s : State) : s.buildMap.seeded = s.seeded := rfl
@[simp] theorem State.buildMap_cmd (s : State) : s.buildMap.cmd = s.cmd := rfl
@[simp] theorem State.buildMap_inp (s : State) : s.buildMap.inp = s.inp := rfl
@[simp] theorem State.buildMap_out (s : State) : s.buildMap.out = s.out := rfl
@[simp] theorem State.buildMap_resp (s : State) : s.buildMap.resp = s.resp := rfl

/-! ### State.treeReset -/

@[simp] theorem State.treeReset_phase (s : State) : s.treeReset.phase = s.phase := rfl
@[simp] theorem State.treeReset_bitcnt (s : State) : s.treeReset.bitcnt = 0 := rfl
@[simp] theorem State.treeReset_count (s : State) : s.treeReset.count = s.count := rfl
@[simp] theorem State.treeReset_fault (s : State) : s.treeReset.fault = s.fault := rfl
@[simp] theorem State.treeReset_len (s : State) : s.treeReset.len = s.len := rfl
@[simp] theorem State.treeReset_vmask (s : State) : s.treeReset.vmask = s.vmask := rfl
@[simp] theorem State.treeReset_vsize (s : State) : s.treeReset.vsize = s.vsize := rfl
@[simp] theorem State.treeReset_fwd (s : State) : s.treeReset.fwd = s.fwd := rfl
@[simp] theorem State.treeReset_inv (s : State) : s.treeReset.inv = s.inv := rfl
@[simp] theorem State.treeReset_vmv (s : State) : s.treeReset.vmv = s.vmv := rfl
@[simp] theorem State.treeReset_node (s : State) : s.treeReset.node = 1 := rfl
@[simp] theorem State.treeReset_plast (s : State) : s.treeReset.plast = s.plast := rfl
@[simp] theorem State.treeReset_pnode (s : State) : s.treeReset.pnode = s.pnode := rfl
@[simp] theorem State.treeReset_plv (s : State) : s.treeReset.plv = s.plv := rfl
@[simp] theorem State.treeReset_elow (s : State) : s.treeReset.elow = s.elow := rfl
@[simp] theorem State.treeReset_ehigh (s : State) : s.treeReset.ehigh = s.ehigh := rfl
@[simp] theorem State.treeReset_dlow (s : State) : s.treeReset.dlow = s.dlow := rfl
@[simp] theorem State.treeReset_dhigh (s : State) : s.treeReset.dhigh = s.dhigh := rfl
@[simp] theorem State.treeReset_dcode (s : State) : s.treeReset.dcode = s.dcode := rfl
@[simp] theorem State.treeReset_pstate (s : State) : s.treeReset.pstate = s.pstate := rfl
@[simp] theorem State.treeReset_prv (s : State) : s.treeReset.prv = s.prv := rfl
@[simp] theorem State.treeReset_bstate (s : State) : s.treeReset.bstate = s.bstate := rfl
@[simp] theorem State.treeReset_dist (s : State) : s.treeReset.dist = s.dist := rfl
@[simp] theorem State.treeReset_bmv (s : State) : s.treeReset.bmv = s.bmv := rfl
@[simp] theorem State.treeReset_hacc (s : State) : s.treeReset.hacc = s.hacc := rfl
@[simp] theorem State.treeReset_nsym (s : State) : s.treeReset.nsym = s.nsym := rfl
@[simp] theorem State.treeReset_rng (s : State) : s.treeReset.rng = s.rng := rfl
@[simp] theorem State.treeReset_seeded (s : State) : s.treeReset.seeded = s.seeded := rfl
@[simp] theorem State.treeReset_cmd (s : State) : s.treeReset.cmd = s.cmd := rfl
@[simp] theorem State.treeReset_inp (s : State) : s.treeReset.inp = s.inp := rfl
@[simp] theorem State.treeReset_out (s : State) : s.treeReset.out = s.out := rfl
@[simp] theorem State.treeReset_resp (s : State) : s.treeReset.resp = s.resp := rfl

/-! ### State.treeStep -/

@[simp] theorem State.treeStep_phase (s : State) (bit : Bool) : (s.treeStep bit).phase = s.phase := rfl
@[simp] theorem State.treeStep_bitcnt (s : State) (bit : Bool) : (s.treeStep bit).bitcnt = s.bitcnt + 1 := rfl
@[simp] theorem State.treeStep_count (s : State) (bit : Bool) : (s.treeStep bit).count = s.count := rfl
@[simp] theorem State.treeStep_fault (s : State) (bit : Bool) : (s.treeStep bit).fault = s.fault := rfl
@[simp] theorem State.treeStep_len (s : State) (bit : Bool) : (s.treeStep bit).len = s.len := rfl
@[simp] theorem State.treeStep_vmask (s : State) (bit : Bool) : (s.treeStep bit).vmask = s.vmask := rfl
@[simp] theorem State.treeStep_vsize (s : State) (bit : Bool) : (s.treeStep bit).vsize = s.vsize := rfl
@[simp] theorem State.treeStep_fwd (s : State) (bit : Bool) : (s.treeStep bit).fwd = s.fwd := rfl
@[simp] theorem State.treeStep_inv (s : State) (bit : Bool) : (s.treeStep bit).inv = s.inv := rfl
@[simp] theorem State.treeStep_vmv (s : State) (bit : Bool) : (s.treeStep bit).vmv = s.vmv := rfl
@[simp] theorem State.treeStep_node (s : State) (bit : Bool) : (s.treeStep bit).node = 2 * s.node + (BitVec.ofBool bit).zeroExtend 9 := rfl
@[simp] theorem State.treeStep_plast (s : State) (bit : Bool) : (s.treeStep bit).plast = s.plast := rfl
@[simp] theorem State.treeStep_pnode (s : State) (bit : Bool) : (s.treeStep bit).pnode = s.pnode := rfl
@[simp] theorem State.treeStep_plv (s : State) (bit : Bool) : (s.treeStep bit).plv = s.plv := rfl
@[simp] theorem State.treeStep_elow (s : State) (bit : Bool) : (s.treeStep bit).elow = s.elow := rfl
@[simp] theorem State.treeStep_ehigh (s : State) (bit : Bool) : (s.treeStep bit).ehigh = s.ehigh := rfl
@[simp] theorem State.treeStep_dlow (s : State) (bit : Bool) : (s.treeStep bit).dlow = s.dlow := rfl
@[simp] theorem State.treeStep_dhigh (s : State) (bit : Bool) : (s.treeStep bit).dhigh = s.dhigh := rfl
@[simp] theorem State.treeStep_dcode (s : State) (bit : Bool) : (s.treeStep bit).dcode = s.dcode := rfl
@[simp] theorem State.treeStep_pstate (s : State) (bit : Bool) : (s.treeStep bit).pstate = s.pstate := rfl
@[simp] theorem State.treeStep_prv (s : State) (bit : Bool) : (s.treeStep bit).prv = s.prv := rfl
@[simp] theorem State.treeStep_bstate (s : State) (bit : Bool) : (s.treeStep bit).bstate = s.bstate := rfl
@[simp] theorem State.treeStep_dist (s : State) (bit : Bool) : (s.treeStep bit).dist = s.dist := rfl
@[simp] theorem State.treeStep_bmv (s : State) (bit : Bool) : (s.treeStep bit).bmv = s.bmv := rfl
@[simp] theorem State.treeStep_hacc (s : State) (bit : Bool) : (s.treeStep bit).hacc = s.hacc := rfl
@[simp] theorem State.treeStep_nsym (s : State) (bit : Bool) : (s.treeStep bit).nsym = s.nsym := rfl
@[simp] theorem State.treeStep_rng (s : State) (bit : Bool) : (s.treeStep bit).rng = s.rng := rfl
@[simp] theorem State.treeStep_seeded (s : State) (bit : Bool) : (s.treeStep bit).seeded = s.seeded := rfl
@[simp] theorem State.treeStep_cmd (s : State) (bit : Bool) : (s.treeStep bit).cmd = s.cmd := rfl
@[simp] theorem State.treeStep_inp (s : State) (bit : Bool) : (s.treeStep bit).inp = s.inp := rfl
@[simp] theorem State.treeStep_out (s : State) (bit : Bool) : (s.treeStep bit).out = s.out := rfl
@[simp] theorem State.treeStep_resp (s : State) (bit : Bool) : (s.treeStep bit).resp = s.resp := rfl

/-! ### State.latch -/

@[simp] theorem State.latch_phase (s : State) (p : Prob) (n : Node) : (s.latch p n).phase = s.phase := rfl
@[simp] theorem State.latch_bitcnt (s : State) (p : Prob) (n : Node) : (s.latch p n).bitcnt = s.bitcnt := rfl
@[simp] theorem State.latch_count (s : State) (p : Prob) (n : Node) : (s.latch p n).count = s.count := rfl
@[simp] theorem State.latch_fault (s : State) (p : Prob) (n : Node) : (s.latch p n).fault = s.fault := rfl
@[simp] theorem State.latch_len (s : State) (p : Prob) (n : Node) : (s.latch p n).len = s.len := rfl
@[simp] theorem State.latch_vmask (s : State) (p : Prob) (n : Node) : (s.latch p n).vmask = s.vmask := rfl
@[simp] theorem State.latch_vsize (s : State) (p : Prob) (n : Node) : (s.latch p n).vsize = s.vsize := rfl
@[simp] theorem State.latch_fwd (s : State) (p : Prob) (n : Node) : (s.latch p n).fwd = s.fwd := rfl
@[simp] theorem State.latch_inv (s : State) (p : Prob) (n : Node) : (s.latch p n).inv = s.inv := rfl
@[simp] theorem State.latch_vmv (s : State) (p : Prob) (n : Node) : (s.latch p n).vmv = s.vmv := rfl
@[simp] theorem State.latch_node (s : State) (p : Prob) (n : Node) : (s.latch p n).node = s.node := rfl
@[simp] theorem State.latch_plast (s : State) (p : Prob) (n : Node) : (s.latch p n).plast = p := rfl
@[simp] theorem State.latch_pnode (s : State) (p : Prob) (n : Node) : (s.latch p n).pnode = n := rfl
@[simp] theorem State.latch_plv (s : State) (p : Prob) (n : Node) : (s.latch p n).plv = s.plv := rfl
@[simp] theorem State.latch_elow (s : State) (p : Prob) (n : Node) : (s.latch p n).elow = s.elow := rfl
@[simp] theorem State.latch_ehigh (s : State) (p : Prob) (n : Node) : (s.latch p n).ehigh = s.ehigh := rfl
@[simp] theorem State.latch_dlow (s : State) (p : Prob) (n : Node) : (s.latch p n).dlow = s.dlow := rfl
@[simp] theorem State.latch_dhigh (s : State) (p : Prob) (n : Node) : (s.latch p n).dhigh = s.dhigh := rfl
@[simp] theorem State.latch_dcode (s : State) (p : Prob) (n : Node) : (s.latch p n).dcode = s.dcode := rfl
@[simp] theorem State.latch_pstate (s : State) (p : Prob) (n : Node) : (s.latch p n).pstate = s.pstate := rfl
@[simp] theorem State.latch_prv (s : State) (p : Prob) (n : Node) : (s.latch p n).prv = s.prv := rfl
@[simp] theorem State.latch_bstate (s : State) (p : Prob) (n : Node) : (s.latch p n).bstate = s.bstate := rfl
@[simp] theorem State.latch_dist (s : State) (p : Prob) (n : Node) : (s.latch p n).dist = s.dist := rfl
@[simp] theorem State.latch_bmv (s : State) (p : Prob) (n : Node) : (s.latch p n).bmv = s.bmv := rfl
@[simp] theorem State.latch_hacc (s : State) (p : Prob) (n : Node) : (s.latch p n).hacc = s.hacc := rfl
@[simp] theorem State.latch_nsym (s : State) (p : Prob) (n : Node) : (s.latch p n).nsym = s.nsym := rfl
@[simp] theorem State.latch_rng (s : State) (p : Prob) (n : Node) : (s.latch p n).rng = s.rng := rfl
@[simp] theorem State.latch_seeded (s : State) (p : Prob) (n : Node) : (s.latch p n).seeded = s.seeded := rfl
@[simp] theorem State.latch_cmd (s : State) (p : Prob) (n : Node) : (s.latch p n).cmd = s.cmd := rfl
@[simp] theorem State.latch_inp (s : State) (p : Prob) (n : Node) : (s.latch p n).inp = s.inp := rfl
@[simp] theorem State.latch_out (s : State) (p : Prob) (n : Node) : (s.latch p n).out = s.out := rfl
@[simp] theorem State.latch_resp (s : State) (p : Prob) (n : Node) : (s.latch p n).resp = s.resp := rfl

/-! ### State.learn -/

@[simp] theorem State.learn_phase (P : Pred) (s : State) (n : Node) (bit : Bool) (p : Prob) : (s.learn P n bit p).phase = s.phase := rfl
@[simp] theorem State.learn_bitcnt (P : Pred) (s : State) (n : Node) (bit : Bool) (p : Prob) : (s.learn P n bit p).bitcnt = s.bitcnt := rfl
@[simp] theorem State.learn_count (P : Pred) (s : State) (n : Node) (bit : Bool) (p : Prob) : (s.learn P n bit p).count = s.count := rfl
@[simp] theorem State.learn_fault (P : Pred) (s : State) (n : Node) (bit : Bool) (p : Prob) : (s.learn P n bit p).fault = s.fault := rfl
@[simp] theorem State.learn_len (P : Pred) (s : State) (n : Node) (bit : Bool) (p : Prob) : (s.learn P n bit p).len = s.len := rfl
@[simp] theorem State.learn_vmask (P : Pred) (s : State) (n : Node) (bit : Bool) (p : Prob) : (s.learn P n bit p).vmask = s.vmask := rfl
@[simp] theorem State.learn_vsize (P : Pred) (s : State) (n : Node) (bit : Bool) (p : Prob) : (s.learn P n bit p).vsize = s.vsize := rfl
@[simp] theorem State.learn_fwd (P : Pred) (s : State) (n : Node) (bit : Bool) (p : Prob) : (s.learn P n bit p).fwd = s.fwd := rfl
@[simp] theorem State.learn_inv (P : Pred) (s : State) (n : Node) (bit : Bool) (p : Prob) : (s.learn P n bit p).inv = s.inv := rfl
@[simp] theorem State.learn_vmv (P : Pred) (s : State) (n : Node) (bit : Bool) (p : Prob) : (s.learn P n bit p).vmv = s.vmv := rfl
@[simp] theorem State.learn_node (P : Pred) (s : State) (n : Node) (bit : Bool) (p : Prob) : (s.learn P n bit p).node = s.node := rfl
@[simp] theorem State.learn_plast (P : Pred) (s : State) (n : Node) (bit : Bool) (p : Prob) : (s.learn P n bit p).plast = s.plast := rfl
@[simp] theorem State.learn_pnode (P : Pred) (s : State) (n : Node) (bit : Bool) (p : Prob) : (s.learn P n bit p).pnode = s.pnode := rfl
@[simp] theorem State.learn_plv (P : Pred) (s : State) (n : Node) (bit : Bool) (p : Prob) : (s.learn P n bit p).plv = s.plv := rfl
@[simp] theorem State.learn_elow (P : Pred) (s : State) (n : Node) (bit : Bool) (p : Prob) : (s.learn P n bit p).elow = s.elow := rfl
@[simp] theorem State.learn_ehigh (P : Pred) (s : State) (n : Node) (bit : Bool) (p : Prob) : (s.learn P n bit p).ehigh = s.ehigh := rfl
@[simp] theorem State.learn_dlow (P : Pred) (s : State) (n : Node) (bit : Bool) (p : Prob) : (s.learn P n bit p).dlow = s.dlow := rfl
@[simp] theorem State.learn_dhigh (P : Pred) (s : State) (n : Node) (bit : Bool) (p : Prob) : (s.learn P n bit p).dhigh = s.dhigh := rfl
@[simp] theorem State.learn_dcode (P : Pred) (s : State) (n : Node) (bit : Bool) (p : Prob) : (s.learn P n bit p).dcode = s.dcode := rfl
@[simp] theorem State.learn_pstate (P : Pred) (s : State) (n : Node) (bit : Bool) (p : Prob) : (s.learn P n bit p).pstate = P.observe s.pstate n bit p := rfl
@[simp] theorem State.learn_prv (P : Pred) (s : State) (n : Node) (bit : Bool) (p : Prob) : (s.learn P n bit p).prv = s.prv := rfl
@[simp] theorem State.learn_bstate (P : Pred) (s : State) (n : Node) (bit : Bool) (p : Prob) : (s.learn P n bit p).bstate = s.bstate := rfl
@[simp] theorem State.learn_dist (P : Pred) (s : State) (n : Node) (bit : Bool) (p : Prob) : (s.learn P n bit p).dist = s.dist := rfl
@[simp] theorem State.learn_bmv (P : Pred) (s : State) (n : Node) (bit : Bool) (p : Prob) : (s.learn P n bit p).bmv = s.bmv := rfl
@[simp] theorem State.learn_hacc (P : Pred) (s : State) (n : Node) (bit : Bool) (p : Prob) : (s.learn P n bit p).hacc = s.hacc := rfl
@[simp] theorem State.learn_nsym (P : Pred) (s : State) (n : Node) (bit : Bool) (p : Prob) : (s.learn P n bit p).nsym = s.nsym := rfl
@[simp] theorem State.learn_rng (P : Pred) (s : State) (n : Node) (bit : Bool) (p : Prob) : (s.learn P n bit p).rng = s.rng := rfl
@[simp] theorem State.learn_seeded (P : Pred) (s : State) (n : Node) (bit : Bool) (p : Prob) : (s.learn P n bit p).seeded = s.seeded := rfl
@[simp] theorem State.learn_cmd (P : Pred) (s : State) (n : Node) (bit : Bool) (p : Prob) : (s.learn P n bit p).cmd = s.cmd := rfl
@[simp] theorem State.learn_inp (P : Pred) (s : State) (n : Node) (bit : Bool) (p : Prob) : (s.learn P n bit p).inp = s.inp := rfl
@[simp] theorem State.learn_out (P : Pred) (s : State) (n : Node) (bit : Bool) (p : Prob) : (s.learn P n bit p).out = s.out := rfl
@[simp] theorem State.learn_resp (P : Pred) (s : State) (n : Node) (bit : Bool) (p : Prob) : (s.learn P n bit p).resp = s.resp := rfl

/-! ### State.encodeBit -/

@[simp] theorem State.encodeBit_phase (s : State) (bit : Bool) (p : Prob) : (s.encodeBit bit p).phase = s.phase := rfl
@[simp] theorem State.encodeBit_bitcnt (s : State) (bit : Bool) (p : Prob) : (s.encodeBit bit p).bitcnt = s.bitcnt := rfl
@[simp] theorem State.encodeBit_count (s : State) (bit : Bool) (p : Prob) : (s.encodeBit bit p).count = s.count := rfl
@[simp] theorem State.encodeBit_fault (s : State) (bit : Bool) (p : Prob) : (s.encodeBit bit p).fault = s.fault := rfl
@[simp] theorem State.encodeBit_len (s : State) (bit : Bool) (p : Prob) : (s.encodeBit bit p).len = s.len := rfl
@[simp] theorem State.encodeBit_vmask (s : State) (bit : Bool) (p : Prob) : (s.encodeBit bit p).vmask = s.vmask := rfl
@[simp] theorem State.encodeBit_vsize (s : State) (bit : Bool) (p : Prob) : (s.encodeBit bit p).vsize = s.vsize := rfl
@[simp] theorem State.encodeBit_fwd (s : State) (bit : Bool) (p : Prob) : (s.encodeBit bit p).fwd = s.fwd := rfl
@[simp] theorem State.encodeBit_inv (s : State) (bit : Bool) (p : Prob) : (s.encodeBit bit p).inv = s.inv := rfl
@[simp] theorem State.encodeBit_vmv (s : State) (bit : Bool) (p : Prob) : (s.encodeBit bit p).vmv = s.vmv := rfl
@[simp] theorem State.encodeBit_node (s : State) (bit : Bool) (p : Prob) : (s.encodeBit bit p).node = s.node := rfl
@[simp] theorem State.encodeBit_plast (s : State) (bit : Bool) (p : Prob) : (s.encodeBit bit p).plast = s.plast := rfl
@[simp] theorem State.encodeBit_pnode (s : State) (bit : Bool) (p : Prob) : (s.encodeBit bit p).pnode = s.pnode := rfl
@[simp] theorem State.encodeBit_plv (s : State) (bit : Bool) (p : Prob) : (s.encodeBit bit p).plv = s.plv := rfl
@[simp] theorem State.encodeBit_elow (s : State) (bit : Bool) (p : Prob) : (s.encodeBit bit p).elow = (encodeStep s.encInterval p bit).2.low := rfl
@[simp] theorem State.encodeBit_ehigh (s : State) (bit : Bool) (p : Prob) : (s.encodeBit bit p).ehigh = (encodeStep s.encInterval p bit).2.high := rfl
@[simp] theorem State.encodeBit_dlow (s : State) (bit : Bool) (p : Prob) : (s.encodeBit bit p).dlow = s.dlow := rfl
@[simp] theorem State.encodeBit_dhigh (s : State) (bit : Bool) (p : Prob) : (s.encodeBit bit p).dhigh = s.dhigh := rfl
@[simp] theorem State.encodeBit_dcode (s : State) (bit : Bool) (p : Prob) : (s.encodeBit bit p).dcode = s.dcode := rfl
@[simp] theorem State.encodeBit_pstate (s : State) (bit : Bool) (p : Prob) : (s.encodeBit bit p).pstate = s.pstate := rfl
@[simp] theorem State.encodeBit_prv (s : State) (bit : Bool) (p : Prob) : (s.encodeBit bit p).prv = s.prv := rfl
@[simp] theorem State.encodeBit_bstate (s : State) (bit : Bool) (p : Prob) : (s.encodeBit bit p).bstate = s.bstate := rfl
@[simp] theorem State.encodeBit_dist (s : State) (bit : Bool) (p : Prob) : (s.encodeBit bit p).dist = s.dist := rfl
@[simp] theorem State.encodeBit_bmv (s : State) (bit : Bool) (p : Prob) : (s.encodeBit bit p).bmv = s.bmv := rfl
@[simp] theorem State.encodeBit_hacc (s : State) (bit : Bool) (p : Prob) : (s.encodeBit bit p).hacc = s.hacc := rfl
@[simp] theorem State.encodeBit_nsym (s : State) (bit : Bool) (p : Prob) : (s.encodeBit bit p).nsym = s.nsym := rfl
@[simp] theorem State.encodeBit_rng (s : State) (bit : Bool) (p : Prob) : (s.encodeBit bit p).rng = s.rng := rfl
@[simp] theorem State.encodeBit_seeded (s : State) (bit : Bool) (p : Prob) : (s.encodeBit bit p).seeded = s.seeded := rfl
@[simp] theorem State.encodeBit_cmd (s : State) (bit : Bool) (p : Prob) : (s.encodeBit bit p).cmd = s.cmd := rfl
@[simp] theorem State.encodeBit_inp (s : State) (bit : Bool) (p : Prob) : (s.encodeBit bit p).inp = s.inp := rfl
@[simp] theorem State.encodeBit_out (s : State) (bit : Bool) (p : Prob) : (s.encodeBit bit p).out = s.out ++ (encodeStep s.encInterval p bit).1 := rfl
@[simp] theorem State.encodeBit_resp (s : State) (bit : Bool) (p : Prob) : (s.encodeBit bit p).resp = s.resp := rfl

/-! ### State.endByte -/

@[simp] theorem State.endByte_phase (s : State) : s.endByte.phase = s.phase := rfl
@[simp] theorem State.endByte_bitcnt (s : State) : s.endByte.bitcnt = 0 := rfl
@[simp] theorem State.endByte_count (s : State) : s.endByte.count = s.count + 1 := rfl
@[simp] theorem State.endByte_fault (s : State) : s.endByte.fault = s.fault := rfl
@[simp] theorem State.endByte_len (s : State) : s.endByte.len = s.len := rfl
@[simp] theorem State.endByte_vmask (s : State) : s.endByte.vmask = s.vmask := rfl
@[simp] theorem State.endByte_vsize (s : State) : s.endByte.vsize = s.vsize := rfl
@[simp] theorem State.endByte_fwd (s : State) : s.endByte.fwd = s.fwd := rfl
@[simp] theorem State.endByte_inv (s : State) : s.endByte.inv = s.inv := rfl
@[simp] theorem State.endByte_vmv (s : State) : s.endByte.vmv = s.vmv := rfl
@[simp] theorem State.endByte_node (s : State) : s.endByte.node = 1 := rfl
@[simp] theorem State.endByte_plast (s : State) : s.endByte.plast = s.plast := rfl
@[simp] theorem State.endByte_pnode (s : State) : s.endByte.pnode = s.pnode := rfl
@[simp] theorem State.endByte_plv (s : State) : s.endByte.plv = false := rfl
@[simp] theorem State.endByte_elow (s : State) : s.endByte.elow = s.elow := rfl
@[simp] theorem State.endByte_ehigh (s : State) : s.endByte.ehigh = s.ehigh := rfl
@[simp] theorem State.endByte_dlow (s : State) : s.endByte.dlow = s.dlow := rfl
@[simp] theorem State.endByte_dhigh (s : State) : s.endByte.dhigh = s.dhigh := rfl
@[simp] theorem State.endByte_dcode (s : State) : s.endByte.dcode = s.dcode := rfl
@[simp] theorem State.endByte_pstate (s : State) : s.endByte.pstate = s.pstate := rfl
@[simp] theorem State.endByte_prv (s : State) : s.endByte.prv = s.prv := rfl
@[simp] theorem State.endByte_bstate (s : State) : s.endByte.bstate = s.bstate := rfl
@[simp] theorem State.endByte_dist (s : State) : s.endByte.dist = s.dist := rfl
@[simp] theorem State.endByte_bmv (s : State) : s.endByte.bmv = s.bmv := rfl
@[simp] theorem State.endByte_hacc (s : State) : s.endByte.hacc = s.hacc := rfl
@[simp] theorem State.endByte_nsym (s : State) : s.endByte.nsym = s.nsym := rfl
@[simp] theorem State.endByte_rng (s : State) : s.endByte.rng = s.rng := rfl
@[simp] theorem State.endByte_seeded (s : State) : s.endByte.seeded = s.seeded := rfl
@[simp] theorem State.endByte_cmd (s : State) : s.endByte.cmd = s.cmd := rfl
@[simp] theorem State.endByte_inp (s : State) : s.endByte.inp = s.inp := rfl
@[simp] theorem State.endByte_out (s : State) : s.endByte.out = s.out := rfl
@[simp] theorem State.endByte_resp (s : State) : s.endByte.resp = s.resp := rfl

/-! ### State.startPass -/

@[simp] theorem State.startPass_phase (s : State) : s.startPass.phase = s.phase := rfl
@[simp] theorem State.startPass_bitcnt (s : State) : s.startPass.bitcnt = 0 := rfl
@[simp] theorem State.startPass_count (s : State) : s.startPass.count = 0 := rfl
@[simp] theorem State.startPass_fault (s : State) : s.startPass.fault = s.fault := rfl
@[simp] theorem State.startPass_len (s : State) : s.startPass.len = s.len := rfl
@[simp] theorem State.startPass_vmask (s : State) : s.startPass.vmask = s.vmask := rfl
@[simp] theorem State.startPass_vsize (s : State) : s.startPass.vsize = s.vsize := rfl
@[simp] theorem State.startPass_fwd (s : State) : s.startPass.fwd = s.fwd := rfl
@[simp] theorem State.startPass_inv (s : State) : s.startPass.inv = s.inv := rfl
@[simp] theorem State.startPass_vmv (s : State) : s.startPass.vmv = s.vmv := rfl
@[simp] theorem State.startPass_node (s : State) : s.startPass.node = 1 := rfl
@[simp] theorem State.startPass_plast (s : State) : s.startPass.plast = s.plast := rfl
@[simp] theorem State.startPass_pnode (s : State) : s.startPass.pnode = s.pnode := rfl
@[simp] theorem State.startPass_plv (s : State) : s.startPass.plv = false := rfl
@[simp] theorem State.startPass_elow (s : State) : s.startPass.elow = s.elow := rfl
@[simp] theorem State.startPass_ehigh (s : State) : s.startPass.ehigh = s.ehigh := rfl
@[simp] theorem State.startPass_dlow (s : State) : s.startPass.dlow = s.dlow := rfl
@[simp] theorem State.startPass_dhigh (s : State) : s.startPass.dhigh = s.dhigh := rfl
@[simp] theorem State.startPass_dcode (s : State) : s.startPass.dcode = s.dcode := rfl
@[simp] theorem State.startPass_pstate (s : State) : s.startPass.pstate = s.pstate := rfl
@[simp] theorem State.startPass_prv (s : State) : s.startPass.prv = s.prv := rfl
@[simp] theorem State.startPass_bstate (s : State) : s.startPass.bstate = s.bstate := rfl
@[simp] theorem State.startPass_dist (s : State) : s.startPass.dist = s.dist := rfl
@[simp] theorem State.startPass_bmv (s : State) : s.startPass.bmv = s.bmv := rfl
@[simp] theorem State.startPass_hacc (s : State) : s.startPass.hacc = s.hacc := rfl
@[simp] theorem State.startPass_nsym (s : State) : s.startPass.nsym = s.nsym := rfl
@[simp] theorem State.startPass_rng (s : State) : s.startPass.rng = s.rng := rfl
@[simp] theorem State.startPass_seeded (s : State) : s.startPass.seeded = s.seeded := rfl
@[simp] theorem State.startPass_cmd (s : State) : s.startPass.cmd = s.cmd := rfl
@[simp] theorem State.startPass_inp (s : State) : s.startPass.inp = s.inp := rfl
@[simp] theorem State.startPass_out (s : State) : s.startPass.out = s.out := rfl
@[simp] theorem State.startPass_resp (s : State) : s.startPass.resp = s.resp := rfl

/-! ### State.setModel -/

@[simp] theorem State.setModel_phase (s : State) (r : ByteState × (Nat → Nat)) : (s.setModel r).phase = s.phase := rfl
@[simp] theorem State.setModel_bitcnt (s : State) (r : ByteState × (Nat → Nat)) : (s.setModel r).bitcnt = s.bitcnt := rfl
@[simp] theorem State.setModel_count (s : State) (r : ByteState × (Nat → Nat)) : (s.setModel r).count = s.count := rfl
@[simp] theorem State.setModel_fault (s : State) (r : ByteState × (Nat → Nat)) : (s.setModel r).fault = s.fault := rfl
@[simp] theorem State.setModel_len (s : State) (r : ByteState × (Nat → Nat)) : (s.setModel r).len = s.len := rfl
@[simp] theorem State.setModel_vmask (s : State) (r : ByteState × (Nat → Nat)) : (s.setModel r).vmask = s.vmask := rfl
@[simp] theorem State.setModel_vsize (s : State) (r : ByteState × (Nat → Nat)) : (s.setModel r).vsize = s.vsize := rfl
@[simp] theorem State.setModel_fwd (s : State) (r : ByteState × (Nat → Nat)) : (s.setModel r).fwd = s.fwd := rfl
@[simp] theorem State.setModel_inv (s : State) (r : ByteState × (Nat → Nat)) : (s.setModel r).inv = s.inv := rfl
@[simp] theorem State.setModel_vmv (s : State) (r : ByteState × (Nat → Nat)) : (s.setModel r).vmv = s.vmv := rfl
@[simp] theorem State.setModel_node (s : State) (r : ByteState × (Nat → Nat)) : (s.setModel r).node = s.node := rfl
@[simp] theorem State.setModel_plast (s : State) (r : ByteState × (Nat → Nat)) : (s.setModel r).plast = s.plast := rfl
@[simp] theorem State.setModel_pnode (s : State) (r : ByteState × (Nat → Nat)) : (s.setModel r).pnode = s.pnode := rfl
@[simp] theorem State.setModel_plv (s : State) (r : ByteState × (Nat → Nat)) : (s.setModel r).plv = s.plv := rfl
@[simp] theorem State.setModel_elow (s : State) (r : ByteState × (Nat → Nat)) : (s.setModel r).elow = s.elow := rfl
@[simp] theorem State.setModel_ehigh (s : State) (r : ByteState × (Nat → Nat)) : (s.setModel r).ehigh = s.ehigh := rfl
@[simp] theorem State.setModel_dlow (s : State) (r : ByteState × (Nat → Nat)) : (s.setModel r).dlow = s.dlow := rfl
@[simp] theorem State.setModel_dhigh (s : State) (r : ByteState × (Nat → Nat)) : (s.setModel r).dhigh = s.dhigh := rfl
@[simp] theorem State.setModel_dcode (s : State) (r : ByteState × (Nat → Nat)) : (s.setModel r).dcode = s.dcode := rfl
@[simp] theorem State.setModel_pstate (s : State) (r : ByteState × (Nat → Nat)) : (s.setModel r).pstate = s.pstate := rfl
@[simp] theorem State.setModel_prv (s : State) (r : ByteState × (Nat → Nat)) : (s.setModel r).prv = s.prv := rfl
@[simp] theorem State.setModel_bstate (s : State) (r : ByteState × (Nat → Nat)) : (s.setModel r).bstate = r.1 := rfl
@[simp] theorem State.setModel_dist (s : State) (r : ByteState × (Nat → Nat)) : (s.setModel r).dist = storedDist s.vsize.toNat r.2 := rfl
@[simp] theorem State.setModel_bmv (s : State) (r : ByteState × (Nat → Nat)) : (s.setModel r).bmv = s.bmv := rfl
@[simp] theorem State.setModel_hacc (s : State) (r : ByteState × (Nat → Nat)) : (s.setModel r).hacc = s.hacc := rfl
@[simp] theorem State.setModel_nsym (s : State) (r : ByteState × (Nat → Nat)) : (s.setModel r).nsym = s.nsym := rfl
@[simp] theorem State.setModel_rng (s : State) (r : ByteState × (Nat → Nat)) : (s.setModel r).rng = s.rng := rfl
@[simp] theorem State.setModel_seeded (s : State) (r : ByteState × (Nat → Nat)) : (s.setModel r).seeded = s.seeded := rfl
@[simp] theorem State.setModel_cmd (s : State) (r : ByteState × (Nat → Nat)) : (s.setModel r).cmd = s.cmd := rfl
@[simp] theorem State.setModel_inp (s : State) (r : ByteState × (Nat → Nat)) : (s.setModel r).inp = s.inp := rfl
@[simp] theorem State.setModel_out (s : State) (r : ByteState × (Nat → Nat)) : (s.setModel r).out = s.out := rfl
@[simp] theorem State.setModel_resp (s : State) (r : ByteState × (Nat → Nat)) : (s.setModel r).resp = s.resp := rfl

/-! ### State.resetBlock -/

@[simp] theorem State.resetBlock_phase (s : State) : s.resetBlock.phase = State.reset.phase := rfl
@[simp] theorem State.resetBlock_bitcnt (s : State) : s.resetBlock.bitcnt = State.reset.bitcnt := rfl
@[simp] theorem State.resetBlock_count (s : State) : s.resetBlock.count = State.reset.count := rfl
@[simp] theorem State.resetBlock_fault (s : State) : s.resetBlock.fault = State.reset.fault := rfl
@[simp] theorem State.resetBlock_len (s : State) : s.resetBlock.len = State.reset.len := rfl
@[simp] theorem State.resetBlock_vmask (s : State) : s.resetBlock.vmask = State.reset.vmask := rfl
@[simp] theorem State.resetBlock_vsize (s : State) : s.resetBlock.vsize = State.reset.vsize := rfl
@[simp] theorem State.resetBlock_fwd (s : State) : s.resetBlock.fwd = State.reset.fwd := rfl
@[simp] theorem State.resetBlock_inv (s : State) : s.resetBlock.inv = State.reset.inv := rfl
@[simp] theorem State.resetBlock_vmv (s : State) : s.resetBlock.vmv = State.reset.vmv := rfl
@[simp] theorem State.resetBlock_node (s : State) : s.resetBlock.node = State.reset.node := rfl
@[simp] theorem State.resetBlock_plast (s : State) : s.resetBlock.plast = State.reset.plast := rfl
@[simp] theorem State.resetBlock_pnode (s : State) : s.resetBlock.pnode = State.reset.pnode := rfl
@[simp] theorem State.resetBlock_plv (s : State) : s.resetBlock.plv = State.reset.plv := rfl
@[simp] theorem State.resetBlock_elow (s : State) : s.resetBlock.elow = State.reset.elow := rfl
@[simp] theorem State.resetBlock_ehigh (s : State) : s.resetBlock.ehigh = State.reset.ehigh := rfl
@[simp] theorem State.resetBlock_dlow (s : State) : s.resetBlock.dlow = State.reset.dlow := rfl
@[simp] theorem State.resetBlock_dhigh (s : State) : s.resetBlock.dhigh = State.reset.dhigh := rfl
@[simp] theorem State.resetBlock_dcode (s : State) : s.resetBlock.dcode = State.reset.dcode := rfl
@[simp] theorem State.resetBlock_pstate (s : State) : s.resetBlock.pstate = State.reset.pstate := rfl
@[simp] theorem State.resetBlock_prv (s : State) : s.resetBlock.prv = State.reset.prv := rfl
@[simp] theorem State.resetBlock_bstate (s : State) : s.resetBlock.bstate = State.reset.bstate := rfl
@[simp] theorem State.resetBlock_dist (s : State) : s.resetBlock.dist = State.reset.dist := rfl
@[simp] theorem State.resetBlock_bmv (s : State) : s.resetBlock.bmv = State.reset.bmv := rfl
@[simp] theorem State.resetBlock_hacc (s : State) : s.resetBlock.hacc = State.reset.hacc := rfl
@[simp] theorem State.resetBlock_nsym (s : State) : s.resetBlock.nsym = State.reset.nsym := rfl
@[simp] theorem State.resetBlock_rng (s : State) : s.resetBlock.rng = State.reset.rng := rfl
@[simp] theorem State.resetBlock_seeded (s : State) : s.resetBlock.seeded = State.reset.seeded := rfl
@[simp] theorem State.resetBlock_cmd (s : State) : s.resetBlock.cmd = s.cmd := rfl
@[simp] theorem State.resetBlock_inp (s : State) : s.resetBlock.inp = s.inp := rfl
@[simp] theorem State.resetBlock_out (s : State) : s.resetBlock.out = s.out := rfl
@[simp] theorem State.resetBlock_resp (s : State) : s.resetBlock.resp = s.resp := rfl

/-! ### The fields of the reset state -/

@[simp] theorem State.reset_phase : State.reset.phase = .idle := rfl
@[simp] theorem State.reset_bitcnt : State.reset.bitcnt = 0 := rfl
@[simp] theorem State.reset_count : State.reset.count = 0 := rfl
@[simp] theorem State.reset_fault : State.reset.fault = 0 := rfl
@[simp] theorem State.reset_len : State.reset.len = 0 := rfl
@[simp] theorem State.reset_vmask : State.reset.vmask = 0 := rfl
@[simp] theorem State.reset_vsize : State.reset.vsize = 0 := rfl
@[simp] theorem State.reset_fwd : State.reset.fwd = Vector.replicate 256 absentEntry := rfl
@[simp] theorem State.reset_inv : State.reset.inv = Vector.replicate 256 absentEntry := rfl
@[simp] theorem State.reset_vmv : State.reset.vmv = false := rfl
@[simp] theorem State.reset_node : State.reset.node = 1 := rfl
@[simp] theorem State.reset_plast : State.reset.plast = 0 := rfl
@[simp] theorem State.reset_pnode : State.reset.pnode = 0 := rfl
@[simp] theorem State.reset_plv : State.reset.plv = false := rfl
@[simp] theorem State.reset_elow : State.reset.elow = 0 := rfl
@[simp] theorem State.reset_ehigh : State.reset.ehigh = 0xFFFFFFFF := rfl
@[simp] theorem State.reset_dlow : State.reset.dlow = 0 := rfl
@[simp] theorem State.reset_dhigh : State.reset.dhigh = 0xFFFFFFFF := rfl
@[simp] theorem State.reset_dcode : State.reset.dcode = 0 := rfl
@[simp] theorem State.reset_pstate : State.reset.pstate = ⟨[]⟩ := rfl
@[simp] theorem State.reset_prv : State.reset.prv = false := rfl
@[simp] theorem State.reset_bstate : State.reset.bstate = ⟨[]⟩ := rfl
@[simp] theorem State.reset_dist : State.reset.dist = [] := rfl
@[simp] theorem State.reset_bmv : State.reset.bmv = false := rfl
@[simp] theorem State.reset_hacc : State.reset.hacc = 0 := rfl
@[simp] theorem State.reset_nsym : State.reset.nsym = 0 := rfl
@[simp] theorem State.reset_rng : State.reset.rng = 0 := rfl
@[simp] theorem State.reset_seeded : State.reset.seeded = false := rfl
@[simp] theorem State.reset_cmd : State.reset.cmd = [] := rfl
@[simp] theorem State.reset_inp : State.reset.inp = [] := rfl
@[simp] theorem State.reset_out : State.reset.out = [] := rfl
@[simp] theorem State.reset_resp : State.reset.resp = [] := rfl

end Sys2Proof.Machine
end

