-- ==== Sys2Proof/Laws/Ops.lean ====
section
/-! SUPPORT. For each shared operation, once, what it can answer. -/

namespace Sys2Proof.Machine

/-! ### Responses, faults, checks -/

@[simp] theorem respond_eq (d : Word) (s : State) : respond d s = .next (s.answer false d) := rfl

@[simp] theorem raise_eq (c : FaultCode) (s : State) : raise c s = .next (s.faulted c) := rfl

@[simp] theorem refuse_eq (s : State) : refuse s = .next (s.answer true (s.fault.zeroExtend 32)) := rfl

theorem unlessFaulted_of_zero {s : State} (h : s.fault = 0) (k : Result) : unlessFaulted s k = k := if_pos h

theorem unlessFaulted_of_ne {s : State} (h : s.fault ≠ 0) (k : Result) : unlessFaulted s k = refuse s := if_neg h

theorem require_of {c : Prop} [Decidable c] (h : c) (f : FaultCode) (s : State) (k : Result) :
    require c f s k = k := if_pos h

theorem require_of_not {c : Prop} [Decidable c] (h : ¬c) (f : FaultCode) (s : State) (k : Result) :
    require c f s k = raise f s := if_neg h

/-- The next state is the refusal of a faulted block (R137). -/
def Refused (s t : State) : Prop := s.fault ≠ 0 ∧ t = s.answer true (s.fault.zeroExtend 32)

/-- The next state is that of a fault taken (R136). -/
def Raised (s t : State) : Prop := s.fault = 0 ∧ ∃ c, t = s.faulted c

theorem unlessFaulted_next {s t : State} {k : Result} (h : unlessFaulted s k = .next t) :
    Refused s t ∨ (s.fault = 0 ∧ k = .next t) := by
  by_cases h0 : s.fault = 0
  · exact .inr ⟨h0, by rwa [unlessFaulted_of_zero h0] at h⟩
  · rw [unlessFaulted_of_ne h0, refuse_eq] at h
    exact .inl ⟨h0, (Host.Outcome.next.inj h).symm⟩

theorem require_next {c : Prop} [Decidable c] {f : FaultCode} {s t : State} {k : Result}
    (h : require c f s k = .next t) : (¬c ∧ t = s.faulted f) ∨ (c ∧ k = .next t) := by
  by_cases hc : c
  · exact .inr ⟨hc, by rwa [require_of hc] at h⟩
  · rw [require_of_not hc, raise_eq] at h
    exact .inl ⟨hc, (Host.Outcome.next.inj h).symm⟩

theorem orHold_next {r : Option Result} {t : State} (h : orHold r = .next t) : r = some (.next t) := by
  cases r with
  | none => cases h
  | some x => exact congrArg some h

theorem respond_next {d : Word} {s t : State} (h : respond d s = .next t) : t = s.answer false d :=
  (Host.Outcome.next.inj h).symm

theorem FaultCode.code_ne_zero (c : FaultCode) : c.code ≠ 0 := by cases c <;> decide

theorem FaultCode.code_le_seven (c : FaultCode) : c.code.toNat ≤ 7 := by cases c <;> decide

/-! ### IN -/

theorem takeBytes_eq_some {n : Nat} {inp a b : List Byte} :
    takeBytes n inp = some (a, b) ↔ inp = a ++ b ∧ a.length = n := by
  unfold takeBytes
  constructor
  · intro h
    split at h
    · next hn =>
      obtain ⟨rfl, rfl⟩ := Prod.mk.inj (Option.some.inj h)
      exact ⟨(List.take_append_drop n inp).symm, List.length_take_of_le hn⟩
    · cases h
  · rintro ⟨rfl, rfl⟩
    simp

theorem takeBytes_eq_none {n : Nat} {inp : List Byte} : takeBytes n inp = none ↔ inp.length < n := by
  unfold takeBytes
  split <;> simp <;> omega

/-! ### The register view -/

theorem register_isSome (s : State) (r : Byte) : (s.register r).isSome = decide (r.toNat ≤ 0x1B) := by
  unfold State.register
  split <;> simp_all
  omega

/-! ### Formats -/

theorem clamp_ne_zero (x : Prob) : clamp x ≠ 0 := by
  unfold clamp
  split
  · decide
  · assumption

theorem clamp_of_ne {x : Prob} (h : x ≠ 0) : clamp x = x := if_neg h

theorem saturateMass_toNat (q : Nat) : (saturateMass q).toNat = min q 65536 := by
  have h : min q 65536 < 2 ^ 17 := by omega
  simp only [saturateMass, massOne, BitVec.toNat_ofNat, Nat.mod_eq_of_lt h]

@[simp] theorem storedDist_length (v : Nat) (f : Nat → Nat) : (storedDist v f).length = v := by
  simp [storedDist]

theorem mem_storedDist_le {v : Nat} {f : Nat → Nat} {q : Mass} (h : q ∈ storedDist v f) : q.toNat ≤ 65536 := by
  obtain ⟨i, -, rfl⟩ := List.mem_map.1 h
  rw [saturateMass_toNat]
  omega

@[simp] theorem masses_length (s : State) : s.masses.length = s.vsize.toNat := by simp [State.masses]

theorem scan_index_bounds {qs : List Mass} {r : Int} {i j : Nat} (h : scan qs r i = some j) :
    i ≤ j ∧ j < i + qs.length := by
  induction qs generalizing r i with
  | nil => cases h
  | cons q qs ih =>
    simp only [scan] at h
    split at h
    · cases h
      simp
    · have := ih h
      simp only [List.length_cons]
      omega

/-! ### The coder -/

theorem normaliseE_of_settled {iv : Interval} (h : iv.settled) (n : Nat) :
    normaliseE (n + 1) iv = (topByte iv.high :: (normaliseE n iv.shift).1, (normaliseE n iv.shift).2) := if_pos h

theorem normaliseE_of_open {iv : Interval} (h : ¬iv.settled) (n : Nat) : normaliseE n iv = ([], iv) := by
  cases n with
  | zero => rfl
  | succ n => exact if_neg h

theorem normaliseD_of_settled {win : Window} (h : win.iv.settled) (n : Nat) (b : Byte) (inp : List Byte) :
    normaliseD (n + 1) win (b :: inp) = normaliseD n ⟨win.iv.shift, shiftCode win.code b⟩ inp := if_pos h

theorem normaliseD_starved {win : Window} (h : win.iv.settled) (n : Nat) : normaliseD (n + 1) win [] = none :=
  if_pos h

theorem normaliseD_of_open {win : Window} (h : ¬win.iv.settled) (n : Nat) (inp : List Byte) :
    normaliseD n win inp = some (win, inp) := by
  cases n with
  | zero => rfl
  | succ n => exact if_neg h

theorem normaliseE_length (n : Nat) (iv : Interval) : (normaliseE n iv).1.length ≤ n := by
  induction n generalizing iv with
  | zero => simp [normaliseE]
  | succ n ih =>
    simp only [normaliseE]
    split
    · simpa using ih _
    · simp

/-- `NormaliseD` removes at most `n` bytes, from the front of IN, and its bounds move as the encoder's do. -/
theorem normaliseD_some {n : Nat} {win win' : Window} {inp rest : List Byte}
    (h : normaliseD n win inp = some (win', rest)) :
    ∃ used, inp = used ++ rest ∧ used.length = (normaliseE n win.iv).1.length ∧
      win'.iv = (normaliseE n win.iv).2 := by
  induction n generalizing win inp with
  | zero =>
    obtain ⟨rfl, rfl⟩ := Prod.mk.inj (Option.some.inj h)
    exact ⟨[], rfl, rfl, rfl⟩
  | succ n ih =>
    by_cases hs : win.iv.settled
    · cases inp with
      | nil => rw [normaliseD_starved hs] at h; cases h
      | cons b bs =>
        rw [normaliseD_of_settled hs] at h
        obtain ⟨used, rfl, hl, hi⟩ := ih h
        rw [normaliseE_of_settled hs]
        exact ⟨b :: used, rfl, by simpa using hl, hi⟩
    · rw [normaliseD_of_open hs] at h
      obtain ⟨rfl, rfl⟩ := Prod.mk.inj (Option.some.inj h)
      rw [normaliseE_of_open hs]
      exact ⟨[], rfl, rfl, rfl⟩

/-- What a decoder step can answer: the bit is the comparison with the split, the bounds are the encoder's for
that bit, and the bytes removed are as many as the encoder emits. -/
theorem decodeStep_some {win win' : Window} {p : Prob} {inp rest : List Byte} {bit : Bool}
    (h : decodeStep win p inp = some (bit, win', rest)) :
    bit = decodedBit win p ∧ win'.iv = (encodeStep win.iv p bit).2 ∧
      ∃ used, inp = used ++ rest ∧ used.length = (encodeStep win.iv p bit).1.length := by
  simp only [decodeStep, Option.map_eq_some_iff, Prod.exists, Prod.mk.injEq] at h
  obtain ⟨w, r, hn, rfl, rfl, rfl⟩ := h
  obtain ⟨used, hu, hl, hi⟩ := normaliseD_some hn
  exact ⟨rfl, hi, used, hu, hl⟩

theorem decodeBit_some {s t : State} {p : Prob} {bit : Bool} (h : s.decodeBit p = some (bit, t)) :
    ∃ win rest, decodeStep s.decWindow p s.inp = some (bit, win, rest) ∧
      t = { s with dlow := win.iv.low, dhigh := win.iv.high, dcode := win.code, inp := rest } := by
  simp only [State.decodeBit, Option.map_eq_some_iff, Prod.exists, Prod.mk.injEq] at h
  obtain ⟨b, win, rest, hs, rfl, rfl⟩ := h
  exact ⟨win, rest, hs, rfl⟩

theorem decodeWalkStep_some {P : Pred} {s t : State} (h : s.decodeWalkStep P = some t) :
    ∃ bit u, (s.latch (s.prediction P s.node) s.node).decodeBit (s.prediction P s.node) = some (bit, u) ∧
      t = (u.treeStep bit).learn P s.node bit (s.prediction P s.node) := by
  simp only [State.decodeWalkStep, Option.map_eq_some_iff, Prod.exists] at h
  obtain ⟨bit, u, hd, rfl⟩ := h
  exact ⟨bit, u, hd, rfl⟩

theorem decodeWalk_succ_some {P : Pred} {n : Nat} {s t : State} (h : State.decodeWalk P (n + 1) s = some t) :
    ∃ u, s.decodeWalkStep P = some u ∧ State.decodeWalk P n u = some t :=
  Option.bind_eq_some_iff.1 h

/-! ### The command port -/

@[simp] theorem fetch_nil : fetch [] = .noCommand := rfl

theorem fetch_one_word {w : Word} (h : hasExtension w = false) (ws : List Word) :
    fetch (w :: ws) = (decode w 0).withRest ws := by simp [fetch, h]

theorem fetch_two_words {w : Word} (h : hasExtension w = true) (ext : Word) (ws : List Word) :
    fetch (w :: ext :: ws) = (decode w ext).withRest ws := by simp [fetch, h]

theorem fetch_missing_extension {w : Word} (h : hasExtension w = true) : fetch [w] = .noExtension := by
  simp [fetch, h]

/-- What a step can do: execute the command at the head of the port, or take an illegal one. -/
theorem step_next {s t : State} (h : step s = .next t) :
    (∃ i rest, fetch s.cmd = .command i rest ∧ exec i { s with cmd := rest } = .next t) ∨
    (∃ why rest, fetch s.cmd = .illegal why rest ∧ illegalCommand { s with cmd := rest } = .next t) := by
  unfold step at h
  split at h
  · cases h
  · cases h
  · next why rest hf => exact .inr ⟨why, rest, hf, h⟩
  · next i rest hf => exact .inl ⟨i, rest, hf, h⟩

theorem illegalCommand_next {s t : State} (h : illegalCommand s = .next t) : Refused s t ∨ Raised s t := by
  rcases unlessFaulted_next h with h | ⟨h0, h⟩
  · exact .inl h
  · exact .inr ⟨h0, .illegal, (Host.Outcome.next.inj h).symm⟩

end Sys2Proof.Machine
end

