-- ==== Sys2Proof/Laws/Exec.lean ====
section
/-! SUPPORT. For each command, once, every next state it can give: the refusal of a faulted block, a fault taken,
or its own effect with the checks it passed. -/

namespace Sys2Proof.Machine

theorem execSreset_next {s t : State} (h : execSreset s = .next t) : t = s.resetBlock.answer false 0 :=
  respond_next h

theorem execRdr_next {r : Byte} {s t : State} (h : execRdr r s = .next t) :
    Refused s t ∨ Raised s t ∨ ∃ v, s.register r = some v ∧ t = s.answer false v := by
  unfold execRdr at h
  split at h
  · next v hv => exact .inr (.inr ⟨v, hv, respond_next h⟩)
  · rcases unlessFaulted_next h with h | ⟨h0, h⟩
    · exact .inl h
    · exact .inr (.inl ⟨h0, .operand, (Host.Outcome.next.inj h).symm⟩)

theorem execNop_next {s t : State} (h : execNop s = .next t) :
    Refused s t ∨ Raised s t ∨
      (s.fault = 0 ∧ t = s.answer false 0) := by
  rcases unlessFaulted_next h with h | ⟨h0, h⟩
  · exact .inl h
  exact .inr (.inr ⟨h0, respond_next h⟩)

theorem execStop_next {s t : State} (h : execStop s = .next t) :
    Refused s t ∨ Raised s t ∨
      (s.fault = 0 ∧ (s.phase = .dec ∨ s.phase = .train ∨ s.phase = .gen) ∧ t = ({ s with phase := .idle } : State).answer false 0) := by
  rcases unlessFaulted_next h with h | ⟨h0, h⟩
  · exact .inl h
  rcases require_next h with ⟨-, h⟩ | ⟨h1, h⟩
  · exact .inr (.inl ⟨h0, _, h⟩)
  exact .inr (.inr ⟨h0, h1, respond_next h⟩)

theorem execVmclr_next {s t : State} (h : execVmclr s = .next t) :
    Refused s t ∨ Raised s t ∨
      (s.fault = 0 ∧ s.phase = .idle ∧ t = (({ s with vmask := 0 } : State).maskChanged).answer false 0) := by
  rcases unlessFaulted_next h with h | ⟨h0, h⟩
  · exact .inl h
  rcases require_next h with ⟨-, h⟩ | ⟨h1, h⟩
  · exact .inr (.inl ⟨h0, _, h⟩)
  exact .inr (.inr ⟨h0, h1, respond_next h⟩)

theorem execVmall_next {s t : State} (h : execVmall s = .next t) :
    Refused s t ∨ Raised s t ∨
      (s.fault = 0 ∧ s.phase = .idle ∧ t = (({ s with vmask := BitVec.allOnes 256 } : State).maskChanged).answer false 0) := by
  rcases unlessFaulted_next h with h | ⟨h0, h⟩
  · exact .inl h
  rcases require_next h with ⟨-, h⟩ | ⟨h1, h⟩
  · exact .inr (.inl ⟨h0, _, h⟩)
  exact .inr (.inr ⟨h0, h1, respond_next h⟩)

theorem execVmark_next {b : Byte} {s t : State} (h : execVmark b s = .next t) :
    Refused s t ∨ Raised s t ∨
      (s.fault = 0 ∧ s.phase = .idle ∧ t = (({ s with vmask := markValue s.vmask b } : State).maskChanged).answer false 0) := by
  rcases unlessFaulted_next h with h | ⟨h0, h⟩
  · exact .inl h
  rcases require_next h with ⟨-, h⟩ | ⟨h1, h⟩
  · exact .inr (.inl ⟨h0, _, h⟩)
  exact .inr (.inr ⟨h0, h1, respond_next h⟩)

theorem execSetmask_next {k : BitVec 3} {ext : Word} {s t : State} (h : execSetmask k ext s = .next t) :
    Refused s t ∨ Raised s t ∨
      (s.fault = 0 ∧ s.phase = .idle ∧ t = (({ s with vmask := setMaskWord s.vmask k ext } : State).maskChanged).answer false 0) := by
  rcases unlessFaulted_next h with h | ⟨h0, h⟩
  · exact .inl h
  rcases require_next h with ⟨-, h⟩ | ⟨h1, h⟩
  · exact .inr (.inl ⟨h0, _, h⟩)
  exact .inr (.inr ⟨h0, h1, respond_next h⟩)

theorem execVmbuild_next {s t : State} (h : execVmbuild s = .next t) :
    Refused s t ∨ Raised s t ∨
      (s.fault = 0 ∧ s.phase = .idle ∧ t = s.buildMap.answer false (s.buildMap.vsize.zeroExtend 32)) := by
  rcases unlessFaulted_next h with h | ⟨h0, h⟩
  · exact .inl h
  rcases require_next h with ⟨-, h⟩ | ⟨h1, h⟩
  · exact .inr (.inl ⟨h0, _, h⟩)
  exact .inr (.inr ⟨h0, h1, respond_next h⟩)

theorem execVmfwd_next {b : Byte} {s t : State} (h : execVmfwd b s = .next t) :
    Refused s t ∨ Raised s t ∨
      (s.fault = 0 ∧ s.vmv = true ∧ t = s.answer false ((s.forward b).zeroExtend 32)) := by
  rcases unlessFaulted_next h with h | ⟨h0, h⟩
  · exact .inl h
  rcases require_next h with ⟨-, h⟩ | ⟨h1, h⟩
  · exact .inr (.inl ⟨h0, _, h⟩)
  exact .inr (.inr ⟨h0, h1, respond_next h⟩)

theorem execVminv_next {i : Byte} {s t : State} (h : execVminv i s = .next t) :
    Refused s t ∨ Raised s t ∨
      (s.fault = 0 ∧ s.vmv = true ∧ t = s.answer false ((s.inverse i.toNat).zeroExtend 32)) := by
  rcases unlessFaulted_next h with h | ⟨h0, h⟩
  · exact .inl h
  rcases require_next h with ⟨-, h⟩ | ⟨h1, h⟩
  · exact .inr (.inl ⟨h0, _, h⟩)
  exact .inr (.inr ⟨h0, h1, respond_next h⟩)

theorem execSetlen_next {hi8 : Byte} {ext : Word} {s t : State} (h : execSetlen hi8 ext s = .next t) :
    Refused s t ∨ Raised s t ∨
      (s.fault = 0 ∧ s.phase = .idle ∧ t = ({ s with len := lenOperand hi8 ext } : State).answer false 0) := by
  rcases unlessFaulted_next h with h | ⟨h0, h⟩
  · exact .inl h
  rcases require_next h with ⟨-, h⟩ | ⟨h1, h⟩
  · exact .inr (.inl ⟨h0, _, h⟩)
  exact .inr (.inr ⟨h0, h1, respond_next h⟩)

theorem execHdrw_next {s t : State} (h : execHdrw s = .next t) :
    Refused s t ∨ Raised s t ∨
      (s.fault = 0 ∧ s.phase = .idle ∧ writeHeader s = .next t) := by
  rcases unlessFaulted_next h with h | ⟨h0, h⟩
  · exact .inl h
  rcases require_next h with ⟨-, h⟩ | ⟨h1, h⟩
  · exact .inr (.inl ⟨h0, _, h⟩)
  exact .inr (.inr ⟨h0, h1, h⟩)

theorem execHdrr_next {s t : State} (h : execHdrr s = .next t) :
    Refused s t ∨ Raised s t ∨
      (s.fault = 0 ∧ s.phase = .idle ∧ readHeader s = some (.next t)) := by
  rcases unlessFaulted_next h with h | ⟨h0, h⟩
  · exact .inl h
  rcases require_next h with ⟨-, h⟩ | ⟨h1, h⟩
  · exact .inr (.inl ⟨h0, _, h⟩)
  exact .inr (.inr ⟨h0, h1, orHold_next h⟩)

theorem execBtrst_next {s t : State} (h : execBtrst s = .next t) :
    Refused s t ∨ Raised s t ∨
      (s.fault = 0 ∧ s.inBitPhase ∧ t = s.treeReset.answer false 0) := by
  rcases unlessFaulted_next h with h | ⟨h0, h⟩
  · exact .inl h
  rcases require_next h with ⟨-, h⟩ | ⟨h1, h⟩
  · exact .inr (.inl ⟨h0, _, h⟩)
  exact .inr (.inr ⟨h0, h1, respond_next h⟩)

theorem execBtstep_next {bit : Bool} {s t : State} (h : execBtstep bit s = .next t) :
    Refused s t ∨ Raised s t ∨
      (s.fault = 0 ∧ s.inBitPhase ∧ s.bitcnt.toNat < 8 ∧ t = (s.treeStep bit).answer false ((s.treeStep bit).node.zeroExtend 32)) := by
  rcases unlessFaulted_next h with h | ⟨h0, h⟩
  · exact .inl h
  rcases require_next h with ⟨-, h⟩ | ⟨h1, h⟩
  · exact .inr (.inl ⟨h0, _, h⟩)
  rcases require_next h with ⟨-, h⟩ | ⟨h2, h⟩
  · exact .inr (.inl ⟨h0, _, h⟩)
  exact .inr (.inr ⟨h0, h1, h2, respond_next h⟩)

theorem execPinit_next {s t : State} (h : execPinit s = .next t) :
    Refused s t ∨ Raised s t ∨
      (s.fault = 0 ∧ s.phase = .idle ∧ s.vmv = true ∧ 1 ≤ s.vsize.toNat ∧ t = ({ s with pstate := Config.pred.init s.vmask, prv := true, plv := false } : State).answer false 0) := by
  rcases unlessFaulted_next h with h | ⟨h0, h⟩
  · exact .inl h
  rcases require_next h with ⟨-, h⟩ | ⟨h1, h⟩
  · exact .inr (.inl ⟨h0, _, h⟩)
  rcases require_next h with ⟨-, h⟩ | ⟨h2, h⟩
  · exact .inr (.inl ⟨h0, _, h⟩)
  rcases require_next h with ⟨-, h⟩ | ⟨h3, h⟩
  · exact .inr (.inl ⟨h0, _, h⟩)
  exact .inr (.inr ⟨h0, h1, h2, h3, respond_next h⟩)

theorem execPpred_next {node : Node} {s t : State} (h : execPpred node s = .next t) :
    Refused s t ∨ Raised s t ∨
      (s.fault = 0 ∧ s.inBitPhase ∧ s.prv = true ∧ nodeInRange node ∧ t = ({ s.latch (s.prediction Config.pred node) node with plv := true } : State).answer false ((s.prediction Config.pred node).zeroExtend 32)) := by
  rcases unlessFaulted_next h with h | ⟨h0, h⟩
  · exact .inl h
  rcases require_next h with ⟨-, h⟩ | ⟨h1, h⟩
  · exact .inr (.inl ⟨h0, _, h⟩)
  rcases require_next h with ⟨-, h⟩ | ⟨h2, h⟩
  · exact .inr (.inl ⟨h0, _, h⟩)
  rcases require_next h with ⟨-, h⟩ | ⟨h3, h⟩
  · exact .inr (.inl ⟨h0, _, h⟩)
  exact .inr (.inr ⟨h0, h1, h2, h3, respond_next h⟩)

theorem execPobs_next {node : Node} {bit : Bool} {s t : State} (h : execPobs node bit s = .next t) :
    Refused s t ∨ Raised s t ∨
      (s.fault = 0 ∧ s.inBitPhase ∧ s.prv = true ∧ s.plv = true ∧ node = s.pnode ∧ t = ({ s.learn Config.pred node bit s.plast with plv := false } : State).answer false 0) := by
  rcases unlessFaulted_next h with h | ⟨h0, h⟩
  · exact .inl h
  rcases require_next h with ⟨-, h⟩ | ⟨h1, h⟩
  · exact .inr (.inl ⟨h0, _, h⟩)
  rcases require_next h with ⟨-, h⟩ | ⟨h2, h⟩
  · exact .inr (.inl ⟨h0, _, h⟩)
  rcases require_next h with ⟨-, h⟩ | ⟨h3, h⟩
  · exact .inr (.inl ⟨h0, _, h⟩)
  rcases require_next h with ⟨-, h⟩ | ⟨h4, h⟩
  · exact .inr (.inl ⟨h0, _, h⟩)
  exact .inr (.inr ⟨h0, h1, h2, h3, h4, respond_next h⟩)

theorem execEstart_next {s t : State} (h : execEstart s = .next t) :
    Refused s t ∨ Raised s t ∨
      (s.fault = 0 ∧ s.phase = .idle ∧ t = ({ s.startPass with elow := 0, ehigh := 0xFFFFFFFF, phase := .enc } : State).answer false 0) := by
  rcases unlessFaulted_next h with h | ⟨h0, h⟩
  · exact .inl h
  rcases require_next h with ⟨-, h⟩ | ⟨h1, h⟩
  · exact .inr (.inl ⟨h0, _, h⟩)
  exact .inr (.inr ⟨h0, h1, respond_next h⟩)

theorem execEbit_next {bit : Bool} {p : Prob} {s t : State} (h : execEbit bit p s = .next t) :
    Refused s t ∨ Raised s t ∨
      (s.fault = 0 ∧ s.phase = .enc ∧ p ≠ 0 ∧ t = (s.encodeBit bit p).answer false 0) := by
  rcases unlessFaulted_next h with h | ⟨h0, h⟩
  · exact .inl h
  rcases require_next h with ⟨-, h⟩ | ⟨h1, h⟩
  · exact .inr (.inl ⟨h0, _, h⟩)
  rcases require_next h with ⟨-, h⟩ | ⟨h2, h⟩
  · exact .inr (.inl ⟨h0, _, h⟩)
  exact .inr (.inr ⟨h0, h1, h2, respond_next h⟩)

theorem execEncb_next {b : Byte} {s t : State} (h : execEncb b s = .next t) :
    Refused s t ∨ Raised s t ∨
      (s.fault = 0 ∧ s.phase = .enc ∧ s.prv = true ∧ s.atByteStart ∧ t = (s.encodeWalk Config.pred (byteBits b)).endByte.answer false 0) := by
  rcases unlessFaulted_next h with h | ⟨h0, h⟩
  · exact .inl h
  rcases require_next h with ⟨-, h⟩ | ⟨h1, h⟩
  · exact .inr (.inl ⟨h0, _, h⟩)
  rcases require_next h with ⟨-, h⟩ | ⟨h2, h⟩
  · exact .inr (.inl ⟨h0, _, h⟩)
  rcases require_next h with ⟨-, h⟩ | ⟨h3, h⟩
  · exact .inr (.inl ⟨h0, _, h⟩)
  exact .inr (.inr ⟨h0, h1, h2, h3, respond_next h⟩)

theorem execEflush_next {s t : State} (h : execEflush s = .next t) :
    Refused s t ∨ Raised s t ∨
      (s.fault = 0 ∧ s.phase = .enc ∧ t = ({ s.emit (wordBytes s.elow) with phase := .idle } : State).answer false 0) := by
  rcases unlessFaulted_next h with h | ⟨h0, h⟩
  · exact .inl h
  rcases require_next h with ⟨-, h⟩ | ⟨h1, h⟩
  · exact .inr (.inl ⟨h0, _, h⟩)
  exact .inr (.inr ⟨h0, h1, respond_next h⟩)

theorem execDstart_next {s t : State} (h : execDstart s = .next t) :
    Refused s t ∨ Raised s t ∨
      (s.fault = 0 ∧ s.phase = .idle ∧ startDecoder s = some (.next t)) := by
  rcases unlessFaulted_next h with h | ⟨h0, h⟩
  · exact .inl h
  rcases require_next h with ⟨-, h⟩ | ⟨h1, h⟩
  · exact .inr (.inl ⟨h0, _, h⟩)
  exact .inr (.inr ⟨h0, h1, orHold_next h⟩)

theorem execDbit_next {p : Prob} {s t : State} (h : execDbit p s = .next t) :
    Refused s t ∨ Raised s t ∨
      (s.fault = 0 ∧ s.phase = .dec ∧ p ≠ 0 ∧ (∃ bit u, s.decodeBit p = some (bit, u) ∧ t = u.answer false ((BitVec.ofBool bit).zeroExtend 32))) := by
  rcases unlessFaulted_next h with h | ⟨h0, h⟩
  · exact .inl h
  rcases require_next h with ⟨-, h⟩ | ⟨h1, h⟩
  · exact .inr (.inl ⟨h0, _, h⟩)
  rcases require_next h with ⟨-, h⟩ | ⟨h2, h⟩
  · exact .inr (.inl ⟨h0, _, h⟩)
  obtain ⟨⟨bit, u⟩, hu, h⟩ := Option.map_eq_some_iff.1 (orHold_next h)
  exact .inr (.inr ⟨h0, h1, h2, bit, u, hu, respond_next h⟩)

theorem execDecb_next {s t : State} (h : execDecb s = .next t) :
    Refused s t ∨ Raised s t ∨
      (s.fault = 0 ∧ s.phase = .dec ∧ s.prv = true ∧ s.atByteStart ∧ (∃ u, State.decodeWalk Config.pred 8 s = some u ∧ t = (u.endByte.emit [walkedByte u]).answer false ((walkedByte u).zeroExtend 32))) := by
  rcases unlessFaulted_next h with h | ⟨h0, h⟩
  · exact .inl h
  rcases require_next h with ⟨-, h⟩ | ⟨h1, h⟩
  · exact .inr (.inl ⟨h0, _, h⟩)
  rcases require_next h with ⟨-, h⟩ | ⟨h2, h⟩
  · exact .inr (.inl ⟨h0, _, h⟩)
  rcases require_next h with ⟨-, h⟩ | ⟨h3, h⟩
  · exact .inr (.inl ⟨h0, _, h⟩)
  obtain ⟨u, hu, h⟩ := Option.map_eq_some_iff.1 (orHold_next h)
  exact .inr (.inr ⟨h0, h1, h2, h3, u, hu, respond_next h⟩)

theorem execSstart_next {s t : State} (h : execSstart s = .next t) :
    Refused s t ∨ Raised s t ∨
      (s.fault = 0 ∧ s.phase = .idle ∧ s.vmv = true ∧ 1 ≤ s.vsize.toNat ∧ t = ({ s.setModel (Config.bmodel.init s.vsize.toNat) with bmv := true, hacc := 0, nsym := 0, phase := .train } : State).answer false 0) := by
  rcases unlessFaulted_next h with h | ⟨h0, h⟩
  · exact .inl h
  rcases require_next h with ⟨-, h⟩ | ⟨h1, h⟩
  · exact .inr (.inl ⟨h0, _, h⟩)
  rcases require_next h with ⟨-, h⟩ | ⟨h2, h⟩
  · exact .inr (.inl ⟨h0, _, h⟩)
  rcases require_next h with ⟨-, h⟩ | ⟨h3, h⟩
  · exact .inr (.inl ⟨h0, _, h⟩)
  exact .inr (.inr ⟨h0, h1, h2, h3, respond_next h⟩)

theorem execTrainb_next {b : Byte} {s t : State} (h : execTrainb b s = .next t) :
    Refused s t ∨ Raised s t ∨
      (s.fault = 0 ∧ s.phase = .train ∧ entryPresent (s.forward b) = true ∧ s.mass (s.forward b).toNat ≠ 0 ∧ t = ({ s.updateModel Config.bmodel (s.forward b).toNat with hacc := s.hacc + score (s.mass (s.forward b).toNat), nsym := s.nsym + 1 } : State).answer false 0) := by
  rcases unlessFaulted_next h with h | ⟨h0, h⟩
  · exact .inl h
  rcases require_next h with ⟨-, h⟩ | ⟨h1, h⟩
  · exact .inr (.inl ⟨h0, _, h⟩)
  rcases require_next h with ⟨-, h⟩ | ⟨h2, h⟩
  · exact .inr (.inl ⟨h0, _, h⟩)
  rcases require_next h with ⟨-, h⟩ | ⟨h3, h⟩
  · exact .inr (.inl ⟨h0, _, h⟩)
  exact .inr (.inr ⟨h0, h1, h2, h3, respond_next h⟩)

theorem execXent_next {s t : State} (h : execXent s = .next t) :
    Refused s t ∨ Raised s t ∨
      (s.fault = 0 ∧ s.inSamplerPhase ∧ s.nsym ≠ 0 ∧ t = s.answer false (crossEntropy s.hacc s.nsym)) := by
  rcases unlessFaulted_next h with h | ⟨h0, h⟩
  · exact .inl h
  rcases require_next h with ⟨-, h⟩ | ⟨h1, h⟩
  · exact .inr (.inl ⟨h0, _, h⟩)
  rcases require_next h with ⟨-, h⟩ | ⟨h2, h⟩
  · exact .inr (.inl ⟨h0, _, h⟩)
  exact .inr (.inr ⟨h0, h1, h2, respond_next h⟩)

theorem execSeed_next {ext : Word} {s t : State} (h : execSeed ext s = .next t) :
    Refused s t ∨ Raised s t ∨
      (s.fault = 0 ∧ t = ({ s with rng := ext, seeded := true } : State).answer false 0) := by
  rcases unlessFaulted_next h with h | ⟨h0, h⟩
  · exact .inl h
  exact .inr (.inr ⟨h0, respond_next h⟩)

theorem execGstart_next {s t : State} (h : execGstart s = .next t) :
    Refused s t ∨ Raised s t ∨
      (s.fault = 0 ∧ s.phase = .train ∧ s.seeded = true ∧ t = ({ s with count := 0, phase := .gen } : State).answer false 0) := by
  rcases unlessFaulted_next h with h | ⟨h0, h⟩
  · exact .inl h
  rcases require_next h with ⟨-, h⟩ | ⟨h1, h⟩
  · exact .inr (.inl ⟨h0, _, h⟩)
  rcases require_next h with ⟨-, h⟩ | ⟨h2, h⟩
  · exact .inr (.inl ⟨h0, _, h⟩)
  exact .inr (.inr ⟨h0, h1, h2, respond_next h⟩)

theorem execGenb_next {s t : State} (h : execGenb s = .next t) :
    Refused s t ∨ Raised s t ∨
      (s.fault = 0 ∧ s.phase = .gen ∧ t = (({ s.updateModel Config.bmodel (generatedIndex s) with rng := nextRng s.rng, count := s.count + 1 } : State).emit [generatedByte s]).answer false ((generatedByte s).zeroExtend 32)) := by
  rcases unlessFaulted_next h with h | ⟨h0, h⟩
  · exact .inl h
  rcases require_next h with ⟨-, h⟩ | ⟨h1, h⟩
  · exact .inr (.inl ⟨h0, _, h⟩)
  exact .inr (.inr ⟨h0, h1, respond_next h⟩)

theorem execSdist_next {i : Byte} {s t : State} (h : execSdist i s = .next t) :
    Refused s t ∨ Raised s t ∨
      (s.fault = 0 ∧ s.inSamplerPhase ∧ i.toNat < s.vsize.toNat ∧ t = s.answer false ((s.mass i.toNat).zeroExtend 32)) := by
  rcases unlessFaulted_next h with h | ⟨h0, h⟩
  · exact .inl h
  rcases require_next h with ⟨-, h⟩ | ⟨h1, h⟩
  · exact .inr (.inl ⟨h0, _, h⟩)
  rcases require_next h with ⟨-, h⟩ | ⟨h2, h⟩
  · exact .inr (.inl ⟨h0, _, h⟩)
  exact .inr (.inr ⟨h0, h1, h2, respond_next h⟩)

/-- The three ways `HDRW` ends (R74). -/
theorem writeHeader_next {s t : State} (h : writeHeader s = .next t) :
    (s.len = 0 ∧ t = (s.emit (lenBytes s.len)).maskChanged.answer false 0) ∨
    (s.len ≠ 0 ∧ s.len.toNat < 10000 ∧
      t = ({ s.emit (lenBytes s.len) with vmask := BitVec.allOnes 256 } : State).buildMap.answer false 1) ∨
    (s.len ≠ 0 ∧ 10000 ≤ s.len.toNat ∧
      t = (s.emit (lenBytes s.len ++ bitmapOfMask s.vmask)).buildMap.answer false 2) := by
  unfold writeHeader bitmapThreshold at h
  split at h
  · next h0 => exact .inl ⟨h0, respond_next h⟩
  · next h0 =>
    split at h
    · next h1 => exact .inr (.inl ⟨h0, h1, respond_next h⟩)
    · next h1 => exact .inr (.inr ⟨h0, Nat.le_of_not_lt h1, respond_next h⟩)

/-- The three ways `HDRR` ends (R75): the bytes removed from IN, the length they give, the mask. -/
theorem readHeader_next {s t : State} (h : readHeader s = some (.next t)) :
    ∃ field rest, s.inp = field ++ rest ∧ field.length = 5 ∧
      ((lenOfBytes field = 0 ∧ t = ({ s with len := lenOfBytes field, inp := rest } : State).maskChanged.answer false 0) ∨
       (lenOfBytes field ≠ 0 ∧ (lenOfBytes field).toNat < 10000 ∧
         t = ({ s with len := lenOfBytes field, inp := rest, vmask := BitVec.allOnes 256 } : State).buildMap.answer false 1) ∨
       (lenOfBytes field ≠ 0 ∧ 10000 ≤ (lenOfBytes field).toNat ∧ ∃ bm rest', rest = bm ++ rest' ∧ bm.length = 32 ∧
         t = ({ s with len := lenOfBytes field, inp := rest', vmask := maskOfBitmap bm } : State).buildMap.answer false 2)) := by
  obtain ⟨⟨field, rest⟩, hf, h⟩ := Option.bind_eq_some_iff.1 h
  obtain ⟨hi, hl⟩ := takeBytes_eq_some.1 hf
  refine ⟨field, rest, hi, hl, ?_⟩
  unfold readHeaderRest bitmapThreshold at h
  split at h
  · next h0 => exact .inl ⟨h0, respond_next (Option.some.inj h)⟩
  · next h0 =>
    split at h
    · next h1 => exact .inr (.inl ⟨h0, h1, respond_next (Option.some.inj h)⟩)
    · next h1 =>
      obtain ⟨⟨bm, rest'⟩, hb, h⟩ := Option.map_eq_some_iff.1 h
      obtain ⟨hr, hbl⟩ := takeBytes_eq_some.1 hb
      exact .inr (.inr ⟨h0, Nat.le_of_not_lt h1, bm, rest', hr, hbl, respond_next h⟩)

/-- What `DSTART` does when IN has its four bytes (R100). -/
theorem startDecoder_next {s t : State} (h : startDecoder s = some (.next t)) :
    ∃ coded rest, s.inp = coded ++ rest ∧ coded.length = 4 ∧
      t = ({ s.startPass with dlow := 0, dhigh := 0xFFFFFFFF, dcode := wordOfBytes coded, inp := rest,
                              phase := .dec } : State).answer false 0 := by
  obtain ⟨⟨coded, rest⟩, hc, h⟩ := Option.map_eq_some_iff.1 h
  obtain ⟨hi, hl⟩ := takeBytes_eq_some.1 hc
  exact ⟨coded, rest, hi, hl, respond_next h⟩

end Sys2Proof.Machine
end

