-- ==== Sys2Proof/Laws/Fixtures.lean ====
section
/-! SUPPORT. Reading TP1's table after one entry of it is written (R90): the entry holds the new value, every other
entry reads as before. -/

namespace Sys2Proof.Laws

open Sys2Proof Sys2Proof.Machine

/-- The place of an entry determines its row and its node. -/
theorem tp1_place_inj (h h' : Nat) (n n' : Node) :
    h * 512 + n.toNat = h' * 512 + n'.toNat ↔ h = h' ∧ n = n' := by
  have := n.isLt
  have := n'.isLt
  rw [← BitVec.toNat_inj]
  omega

@[simp] theorem tp1Cell_place (h : Nat) (n : Node) (t : Prob) : tp1Cell h n t / 65536 = h * 512 + n.toNat := by
  have := t.isLt
  unfold tp1Cell
  omega

@[simp] theorem tp1Cell_value (h : Nat) (n : Node) (t : Prob) : BitVec.ofNat 16 (tp1Cell h n t) = t := by
  have := t.isLt
  refine BitVec.eq_of_toNat_eq ?_
  rw [tp1Cell, BitVec.toNat_ofNat]
  omega

theorem tp1Read_write_same (cells : List Nat) (h : Nat) (n : Node) (t : Prob) :
    tp1Read (tp1Cell h n t :: cells) h n = t := by
  simp [tp1Read]

theorem tp1Read_write_other (cells : List Nat) (h h' : Nat) (n n' : Node) (t : Prob) (hd : ¬(h' = h ∧ n' = n)) :
    tp1Read (tp1Cell h n t :: cells.filter fun c => !(c / 65536 == h * 512 + n.toNat)) h' n' =
      tp1Read cells h' n' := by
  have hk : ¬h' * 512 + n'.toNat = h * 512 + n.toNat := by rwa [tp1_place_inj]
  have hp : (fun c => decide ((!(c / 65536 == h * 512 + n.toNat)) = true ∧ (c / 65536 == h' * 512 + n'.toNat) = true)) =
      fun c : Nat => c / 65536 == h' * 512 + n'.toNat := by
    funext c
    by_cases hc : c / 65536 = h' * 512 + n'.toNat <;> simp [hc, hk]
  have hf : (tp1Cell h n t / 65536 == h' * 512 + n'.toNat) = false := by
    rw [tp1Cell_place, beq_eq_false_iff_ne]
    exact Ne.symm hk
  simp only [tp1Read, List.find?_cons, hf, List.find?_filter, hp]

end Sys2Proof.Laws
end

