-- ==== Sys2Proof/Laws/Frames.lean ====
section
/-! SUPPORT. What the loops and the header commands leave alone: each result is the state before it with the named
fields replaced. -/

namespace Sys2Proof.Machine

/-- `ENCB`'s loop writes the coder's interval, OUT, the walk, the latch and `PSTATE`, nothing else. -/
theorem encodeWalk_frame (P : Pred) (bits : List Bool) (s : State) :
    ∃ elow ehigh out node bitcnt plast pnode pstate, s.encodeWalk P bits =
      { s with elow := elow, ehigh := ehigh, out := s.out ++ out, node := node, bitcnt := bitcnt, plast := plast,
               pnode := pnode, pstate := pstate } ∧ out.length ≤ 4 * bits.length := by
  induction bits generalizing s with
  | nil => exact ⟨s.elow, s.ehigh, [], s.node, s.bitcnt, s.plast, s.pnode, s.pstate, by simp [State.encodeWalk], by simp⟩
  | cons b bs ih =>
    obtain ⟨elow, ehigh, out, node, bitcnt, plast, pnode, pstate, h, hl⟩ := ih (s.encodeWalkStep P b)
    refine ⟨elow, ehigh, (encodeStep s.encInterval (s.prediction P s.node) b).1 ++ out, node, bitcnt, plast, pnode,
      pstate, ?_, ?_⟩
    · rw [State.encodeWalk, List.foldl_cons]
      rw [State.encodeWalk] at h
      rw [h]
      simp [State.encodeWalkStep, State.latch, State.encodeBit, State.treeStep, State.learn, State.emit,
        State.encInterval]
    · have hs := normaliseE_length maxShifts (narrow s.encInterval (s.prediction P s.node) b)
      simp only [encodeStep, List.length_append, List.length_cons, maxShifts] at *
      omega

/-- `DECB`'s loop writes the decoder's window, the walk, the latch and `PSTATE`, and takes bytes from IN, nothing
else. -/
theorem decodeWalk_frame (P : Pred) (n : Nat) {s t : State} (h : State.decodeWalk P n s = some t) :
    ∃ dlow dhigh dcode node bitcnt plast pnode pstate used,
      t = { s with dlow := dlow, dhigh := dhigh, dcode := dcode, inp := t.inp, node := node, bitcnt := bitcnt,
                   plast := plast, pnode := pnode, pstate := pstate } ∧
      s.inp = used ++ t.inp ∧ used.length ≤ 4 * n := by
  induction n generalizing s with
  | zero =>
    obtain rfl := Option.some.inj h
    exact ⟨s.dlow, s.dhigh, s.dcode, s.node, s.bitcnt, s.plast, s.pnode, s.pstate, [], rfl, rfl, by simp⟩
  | succ n ih =>
    obtain ⟨u, hu, ht⟩ := decodeWalk_succ_some h
    obtain ⟨dlow, dhigh, dcode, node, bitcnt, plast, pnode, pstate, used, he, hi, hl⟩ := ih ht
    obtain ⟨bit, v, hd, rfl⟩ := decodeWalkStep_some hu
    obtain ⟨win, rest, hs, rfl⟩ := decodeBit_some hd
    obtain ⟨-, -, used', hi', hl'⟩ := decodeStep_some hs
    refine ⟨dlow, dhigh, dcode, node, bitcnt, plast, pnode, pstate, used' ++ used, ?_, ?_, ?_⟩
    · rw [he]
      simp [State.latch, State.treeStep, State.learn]
    · simp only [State.latch_inp] at hi'
      rw [hi', List.append_assoc]
      exact congrArg _ hi
    · have hn := normaliseE_length maxShifts
        (narrow (s.latch (s.prediction P s.node) s.node).decWindow.iv (s.prediction P s.node) bit)
      simp only [encodeStep, List.length_append, maxShifts] at *
      omega

/-- `BuildMap` writes the tables, the size and the four flags, nothing else. -/
theorem buildMap_frame (s : State) : s.buildMap =
    { s with fwd := s.buildMap.fwd, inv := s.buildMap.inv, vsize := s.buildMap.vsize, vmv := true, prv := false,
             bmv := false, plv := false } := rfl

/-- What `HDRW` leaves: OUT longer by at most 37 bytes; the mask kept with the flags cleared, or the map of the mask
it leaves. -/
theorem writeHeader_frame {s t : State} (h : writeHeader s = .next t) :
    ∃ (bytes : List Byte) (d : Word), bytes.length ≤ 37 ∧
      (t = ({ s with out := s.out ++ bytes } : State).maskChanged.answer false d ∨
       ∃ m : Mask, t = ({ s with out := s.out ++ bytes, vmask := m } : State).buildMap.answer false d) := by
  unfold writeHeader at h
  split at h
  · exact ⟨lenBytes s.len, 0, by simp [lenBytes], .inl (respond_next h)⟩
  · split at h
    · exact ⟨lenBytes s.len, 1, by simp [lenBytes], .inr ⟨_, respond_next h⟩⟩
    · exact ⟨lenBytes s.len ++ bitmapOfMask s.vmask, 2, by simp [lenBytes, bitmapOfMask, bitmapBytes],
        .inr ⟨s.vmask, respond_next h⟩⟩

/-- What `HDRR` leaves: IN shorter by at most 37 bytes, a length, and the mask kept with the flags cleared, or the
map of the mask it leaves. -/
theorem readHeader_frame {s t : State} (h : readHeader s = some (.next t)) :
    ∃ (used rest : List Byte) (l : Len) (d : Word), s.inp = used ++ rest ∧ used.length ≤ 37 ∧
      (t = ({ s with len := l, inp := rest } : State).maskChanged.answer false d ∨
       ∃ m : Mask, t = ({ s with len := l, inp := rest, vmask := m } : State).buildMap.answer false d) := by
  simp only [readHeader, Option.bind_eq_some_iff, Prod.exists] at h
  obtain ⟨a, b, ht, h⟩ := h
  obtain ⟨hi, ha⟩ := takeBytes_eq_some.1 ht
  simp only [lengthBytes] at ha
  unfold readHeaderRest at h
  split at h
  · exact ⟨a, b, _, 0, hi, by omega, .inl (respond_next (Option.some.inj h))⟩
  · split at h
    · exact ⟨a, b, _, 1, hi, by omega, .inr ⟨_, respond_next (Option.some.inj h)⟩⟩
    · simp only [Option.map_eq_some_iff, Prod.exists] at h
      obtain ⟨c, e, hc, h⟩ := h
      obtain ⟨rfl, hl⟩ := takeBytes_eq_some.1 hc
      simp only [bitmapBytes] at hl
      exact ⟨a ++ c, e, _, 2, by rw [hi, List.append_assoc], by simp; omega, .inr ⟨_, respond_next h⟩⟩

end Sys2Proof.Machine
end

