-- ==== Sys2Proof/Laws/PerInstr.lean ====
section
/-! SUPPORT. Facts about every command, one lemma per constructor. -/

namespace Sys2Proof

/-- The opcode of a command (R55). -/
def Laws.EncodedLength.opcode : Instr → Byte
  | .nop => 0x00
  | .sreset => 0x01
  | .rdr _ => 0x02
  | .stop => 0x03
  | .vmclr => 0x10
  | .vmall => 0x11
  | .vmark _ => 0x12
  | .vmbuild => 0x13
  | .vmfwd _ => 0x14
  | .vminv _ => 0x15
  | .hdrw => 0x20
  | .hdrr => 0x21
  | .estart => 0x30
  | .ebit _ _ => 0x31
  | .encb _ => 0x32
  | .eflush => 0x33
  | .dstart => 0x40
  | .dbit _ => 0x41
  | .decb => 0x42
  | .pinit => 0x50
  | .ppred _ => 0x51
  | .pobs _ _ => 0x52
  | .btrst => 0x53
  | .btstep _ => 0x54
  | .sstart => 0x60
  | .trainb _ => 0x61
  | .xent => 0x62
  | .gstart => 0x63
  | .genb => 0x64
  | .sdist _ => 0x65
  | .setmask _ _ => 0x80
  | .setlen _ _ => 0x81
  | .seed _ => 0x82

/-- The first word of a command has the command's opcode in bits 31:24, and its bit 31 alone gives the number of
words (R51). -/
def Laws.EncodedLength.Statement (i : Instr) : Prop :=
  ∃ w tail, encode i = w :: tail ∧ opcodeOf w = Laws.EncodedLength.opcode i ∧
    hasExtension w = (opcodeOf w).getLsbD 7 ∧ tail.length = (hasExtension w).toNat

/-- Bit 31 of a word is bit 7 of its opcode. -/
theorem hasExtension_eq (w : Word) : hasExtension w = (opcodeOf w).getLsbD 7 := by
  simp [hasExtension, opcodeOf]

theorem encodedLength_of_opcode {i : Instr} {w : Word} {tail : List Word} (he : encode i = w :: tail)
    (ho : opcodeOf w = Laws.EncodedLength.opcode i)
    (hl : tail.length = ((Laws.EncodedLength.opcode i).getLsbD 7).toNat) : Laws.EncodedLength.Statement i :=
  ⟨w, tail, he, ho, hasExtension_eq w, by rw [hasExtension_eq, ho, hl]⟩

theorem Laws.EncodedLength.nop : Laws.EncodedLength.Statement (.nop) :=
  encodedLength_of_opcode rfl (opcode_formatN 0x00) (by simp [Laws.EncodedLength.opcode])

theorem Laws.EncodedLength.sreset : Laws.EncodedLength.Statement (.sreset) :=
  encodedLength_of_opcode rfl (opcode_formatN 0x01) (by simp [Laws.EncodedLength.opcode])

theorem Laws.EncodedLength.rdr (r : Byte) : Laws.EncodedLength.Statement (.rdr r) :=
  encodedLength_of_opcode rfl (opcode_formatB 0x02 r) (by simp [Laws.EncodedLength.opcode])

theorem Laws.EncodedLength.stop : Laws.EncodedLength.Statement (.stop) :=
  encodedLength_of_opcode rfl (opcode_formatN 0x03) (by simp [Laws.EncodedLength.opcode])

theorem Laws.EncodedLength.vmclr : Laws.EncodedLength.Statement (.vmclr) :=
  encodedLength_of_opcode rfl (opcode_formatN 0x10) (by simp [Laws.EncodedLength.opcode])

theorem Laws.EncodedLength.vmall : Laws.EncodedLength.Statement (.vmall) :=
  encodedLength_of_opcode rfl (opcode_formatN 0x11) (by simp [Laws.EncodedLength.opcode])

theorem Laws.EncodedLength.vmark (b : Byte) : Laws.EncodedLength.Statement (.vmark b) :=
  encodedLength_of_opcode rfl (opcode_formatB 0x12 b) (by simp [Laws.EncodedLength.opcode])

theorem Laws.EncodedLength.vmbuild : Laws.EncodedLength.Statement (.vmbuild) :=
  encodedLength_of_opcode rfl (opcode_formatN 0x13) (by simp [Laws.EncodedLength.opcode])

theorem Laws.EncodedLength.vmfwd (b : Byte) : Laws.EncodedLength.Statement (.vmfwd b) :=
  encodedLength_of_opcode rfl (opcode_formatB 0x14 b) (by simp [Laws.EncodedLength.opcode])

theorem Laws.EncodedLength.vminv (i : Byte) : Laws.EncodedLength.Statement (.vminv i) :=
  encodedLength_of_opcode rfl (opcode_formatB 0x15 i) (by simp [Laws.EncodedLength.opcode])

theorem Laws.EncodedLength.hdrw : Laws.EncodedLength.Statement (.hdrw) :=
  encodedLength_of_opcode rfl (opcode_formatN 0x20) (by simp [Laws.EncodedLength.opcode])

theorem Laws.EncodedLength.hdrr : Laws.EncodedLength.Statement (.hdrr) :=
  encodedLength_of_opcode rfl (opcode_formatN 0x21) (by simp [Laws.EncodedLength.opcode])

theorem Laws.EncodedLength.estart : Laws.EncodedLength.Statement (.estart) :=
  encodedLength_of_opcode rfl (opcode_formatN 0x30) (by simp [Laws.EncodedLength.opcode])

theorem Laws.EncodedLength.ebit (bit : Bool) (p : Prob) : Laws.EncodedLength.Statement (.ebit bit p) :=
  encodedLength_of_opcode rfl (opcode_formatP 0x31 bit p) (by simp [Laws.EncodedLength.opcode])

theorem Laws.EncodedLength.encb (b : Byte) : Laws.EncodedLength.Statement (.encb b) :=
  encodedLength_of_opcode rfl (opcode_formatB 0x32 b) (by simp [Laws.EncodedLength.opcode])

theorem Laws.EncodedLength.eflush : Laws.EncodedLength.Statement (.eflush) :=
  encodedLength_of_opcode rfl (opcode_formatN 0x33) (by simp [Laws.EncodedLength.opcode])

theorem Laws.EncodedLength.dstart : Laws.EncodedLength.Statement (.dstart) :=
  encodedLength_of_opcode rfl (opcode_formatN 0x40) (by simp [Laws.EncodedLength.opcode])

theorem Laws.EncodedLength.dbit (p : Prob) : Laws.EncodedLength.Statement (.dbit p) :=
  encodedLength_of_opcode rfl (opcode_formatQ 0x41 p) (by simp [Laws.EncodedLength.opcode])

theorem Laws.EncodedLength.decb : Laws.EncodedLength.Statement (.decb) :=
  encodedLength_of_opcode rfl (opcode_formatN 0x42) (by simp [Laws.EncodedLength.opcode])

theorem Laws.EncodedLength.pinit : Laws.EncodedLength.Statement (.pinit) :=
  encodedLength_of_opcode rfl (opcode_formatN 0x50) (by simp [Laws.EncodedLength.opcode])

theorem Laws.EncodedLength.ppred (node : Node) : Laws.EncodedLength.Statement (.ppred node) :=
  encodedLength_of_opcode rfl (opcode_formatK 0x51 node) (by simp [Laws.EncodedLength.opcode])

theorem Laws.EncodedLength.pobs (node : Node) (bit : Bool) : Laws.EncodedLength.Statement (.pobs node bit) :=
  encodedLength_of_opcode rfl (opcode_formatO 0x52 bit node) (by simp [Laws.EncodedLength.opcode])

theorem Laws.EncodedLength.btrst : Laws.EncodedLength.Statement (.btrst) :=
  encodedLength_of_opcode rfl (opcode_formatN 0x53) (by simp [Laws.EncodedLength.opcode])

theorem Laws.EncodedLength.btstep (bit : Bool) : Laws.EncodedLength.Statement (.btstep bit) :=
  encodedLength_of_opcode rfl (opcode_formatT 0x54 bit) (by simp [Laws.EncodedLength.opcode])

theorem Laws.EncodedLength.sstart : Laws.EncodedLength.Statement (.sstart) :=
  encodedLength_of_opcode rfl (opcode_formatN 0x60) (by simp [Laws.EncodedLength.opcode])

theorem Laws.EncodedLength.trainb (b : Byte) : Laws.EncodedLength.Statement (.trainb b) :=
  encodedLength_of_opcode rfl (opcode_formatB 0x61 b) (by simp [Laws.EncodedLength.opcode])

theorem Laws.EncodedLength.xent : Laws.EncodedLength.Statement (.xent) :=
  encodedLength_of_opcode rfl (opcode_formatN 0x62) (by simp [Laws.EncodedLength.opcode])

theorem Laws.EncodedLength.gstart : Laws.EncodedLength.Statement (.gstart) :=
  encodedLength_of_opcode rfl (opcode_formatN 0x63) (by simp [Laws.EncodedLength.opcode])

theorem Laws.EncodedLength.genb : Laws.EncodedLength.Statement (.genb) :=
  encodedLength_of_opcode rfl (opcode_formatN 0x64) (by simp [Laws.EncodedLength.opcode])

theorem Laws.EncodedLength.sdist (i : Byte) : Laws.EncodedLength.Statement (.sdist i) :=
  encodedLength_of_opcode rfl (opcode_formatB 0x65 i) (by simp [Laws.EncodedLength.opcode])

theorem Laws.EncodedLength.setmask (k : BitVec 3) (ext : Word) : Laws.EncodedLength.Statement (.setmask k ext) :=
  encodedLength_of_opcode rfl (opcode_formatXM 0x80 k) (by simp [Laws.EncodedLength.opcode])

theorem Laws.EncodedLength.setlen (hi8 : Byte) (ext : Word) : Laws.EncodedLength.Statement (.setlen hi8 ext) :=
  encodedLength_of_opcode rfl (opcode_formatB 0x81 hi8) (by simp [Laws.EncodedLength.opcode])

theorem Laws.EncodedLength.seed (ext : Word) : Laws.EncodedLength.Statement (.seed ext) :=
  encodedLength_of_opcode rfl (opcode_formatN 0x82) (by simp [Laws.EncodedLength.opcode])

end Sys2Proof
end

