-- ==== Sys2Proof/Tests/Slice0.lean ====
section
/-! SUPPORT. Tests: words decoded from the spec's own vectors (95_test_vectors.md V0), ill-formed commands refused
by the checks, one step per test from the vectors V1 to V7 and the programs P1, P2, P4; then, for every statement of
Certificates/Slice0/Obligations.lean that has hypotheses, states and operands that meet them. -/

namespace Sys2Proof.Tests

open Sys2Proof Sys2Proof.Machine
set_option Elab.async false

/-! ## Helpers -/

/-- The response a result ends with, as `{err, data}`. -/
def reply : Result → Option (Bool × Word)
  | .next t => t.resp.getLast?.map fun r => (r.err, r.data)
  | _ => none

/-- One value of the next state. -/
def view {α : Type} (f : State → α) : Result → Option α
  | .next t => some (f t)
  | _ => none

/-- The result is this fault. -/
def stopsWith (f : Fault) : Result → Bool
  | .fault g => g == f
  | _ => false

/-- The result is a next state. -/
def goesOn : Result → Bool
  | .next _ => true
  | _ => false

theorem next_of_goesOn {r : Result} (h : goesOn r = true) : ∃ t, r = .next t := by
  cases r with
  | next t => exact ⟨t, rfl⟩
  | fault f => cases h
  | refused f => cases h

theorem next_of_view {α : Type} {f : State → α} {r : Result} {v : α} (h : view f r = some v) :
    ∃ t, r = .next t ∧ f t = v := by
  cases r with
  | next t => exact ⟨t, rfl, Option.some.inj h⟩
  | fault g => cases h
  | refused g => cases h

/-! ## Well-formedness: a refused term for each check -/

theorem test_wf_rdr_unmapped : (Instr.rdr 0x1C).wellFormed = false ∧ (Instr.rdr 0x1B).wellFormed = true := by decide

theorem test_wf_ebit_zero : (Instr.ebit true 0).wellFormed = false ∧ (Instr.ebit true 1).wellFormed = true := by decide

theorem test_wf_dbit_zero : (Instr.dbit 0).wellFormed = false ∧ (Instr.dbit 0xFFFF).wellFormed = true := by decide

theorem test_wf_ppred_node : (Instr.ppred 0).wellFormed = false ∧ (Instr.ppred 0x100).wellFormed = false ∧
    (Instr.ppred 0xFF).wellFormed = true := by decide

theorem test_wf_pobs_node : (Instr.pobs 0 true).wellFormed = false ∧ (Instr.pobs 0x100 true).wellFormed = false ∧
    (Instr.pobs 1 true).wellFormed = true := by decide

/-! ## Decoding: the words of V0 -/

/-- V0, first half of the legal words, one per constructor, each written out from its encoding. -/
theorem test_decode_one_word_system_to_coder :
    [fetch [0x00000000], fetch [0x01000000], fetch [0x0200001B], fetch [0x03000000], fetch [0x10000000],
     fetch [0x11000000], fetch [0x12000061], fetch [0x13000000], fetch [0x1400007A], fetch [0x15000019],
     fetch [0x20000000], fetch [0x21000000], fetch [0x30000000], fetch [0x31018000], fetch [0x3100ABCD],
     fetch [0x32000041]] =
    [.command .nop [], .command .sreset [], .command (.rdr 0x1B) [], .command .stop [], .command .vmclr [],
     .command .vmall [], .command (.vmark 0x61) [], .command .vmbuild [], .command (.vmfwd 0x7A) [],
     .command (.vminv 0x19) [], .command .hdrw [], .command .hdrr [], .command .estart [],
     .command (.ebit true 0x8000) [], .command (.ebit false 0xABCD) [], .command (.encb 0x41) []] := by decide

/-- V0, the other one-word commands. -/
theorem test_decode_one_word_coder_to_sampler :
    [fetch [0x33000000], fetch [0x40000000], fetch [0x41001234], fetch [0x42000000], fetch [0x50000000],
     fetch [0x510000FF], fetch [0x520002A0], fetch [0x53000000], fetch [0x54000001], fetch [0x60000000],
     fetch [0x61000061], fetch [0x62000000], fetch [0x63000000], fetch [0x64000000], fetch [0x65000002]] =
    [.command .eflush [], .command .dstart [], .command (.dbit 0x1234) [], .command .decb [], .command .pinit [],
     .command (.ppred 0xFF) [], .command (.pobs 0xA0 true) [], .command .btrst [], .command (.btstep true) [],
     .command .sstart [], .command (.trainb 0x61) [], .command .xent [], .command .gstart [], .command .genb [],
     .command (.sdist 2) []] := by decide

/-- V0, the two-word commands. -/
theorem test_decode_two_words :
    [fetch [0x80000003, 0x07FFFFFE], fetch [0x81000000, 0x00004E20], fetch [0x82000000, 0x00003039]] =
    [.command (.setmask 3 0x07FFFFFE) [], .command (.setlen 0 0x4E20) [], .command (.seed 0x3039) []] := by decide

/-- V0, the words that select no command; with bit 31 set both words are consumed. -/
theorem test_decode_illegal :
    [fetch [0x04000000], fetch [0x00000001], fetch [0x31020000], fetch [0x41010000], fetch [0x51000200],
     fetch [0x52000400], fetch [0x54000002], fetch [0x02000100], fetch [0x7F000000], fetch [0x80000008, 5],
     fetch [0x81000100, 5], fetch [0x82000001, 5], fetch [0x83000000, 5], fetch [0xFFFFFFFF, 5]] =
    [.illegal .unassignedOpcode [], .illegal .reservedBitSet [], .illegal .reservedBitSet [],
     .illegal .reservedBitSet [], .illegal .reservedBitSet [], .illegal .reservedBitSet [],
     .illegal .reservedBitSet [], .illegal .reservedBitSet [], .illegal .unassignedOpcode [],
     .illegal .reservedBitSet [], .illegal .reservedBitSet [], .illegal .reservedBitSet [],
     .illegal .unassignedOpcode [], .illegal .unassignedOpcode []] := by decide

/-- V0: after `83000000 01000000` the next word decoded is the one after the pair. -/
theorem test_decode_illegal_pair_consumed :
    fetch [0x83000000, 0x01000000, 0x02000001] = .illegal .unassignedOpcode [0x02000001] := by decide

/-- The encoder writes V0's words. -/
theorem test_encode_words :
    [encode (.rdr 0x1B), encode (.vmark 0x61), encode (.ebit false 0xABCD), encode (.dbit 0x1234),
     encode (.ppred 0xFF), encode (.pobs 0xA0 true), encode (.btstep true), encode (.setmask 3 0x07FFFFFE),
     encode (.setlen 0 0x4E20), encode (.seed 0x3039)] =
    [[0x0200001B], [0x12000061], [0x3100ABCD], [0x41001234], [0x510000FF], [0x520002A0], [0x54000001],
     [0x80000003, 0x07FFFFFE], [0x81000000, 0x00004E20], [0x82000000, 0x00003039]] := by decide

theorem test_decodeTableWord : decodeTableWord 32 0x510000FF = some (.ppred 0xFF) ∧
    decodeTableWord 64 0x0000303982000000 = some (.seed 0x3039) ∧ decodeTableWord 32 0x82000000 = some (.seed 0) ∧
    decodeTableWord 32 0x31020000 = none := by decide

/-- V7.1 as the first step after reset. -/
theorem test_step_runs_the_placed_word :
    reply (step (State.reset.withFetchWord 32 0x02000000)) = some (false, 0x4C435201) := by decide

/-- V0: an illegal word answers `{1, 1}` and changes `FAULT` only. -/
theorem test_step_illegal_word : step (State.reset.withFetchWord 32 0x7F000000) =
    .next { State.reset with fault := 1, resp := [⟨true, 1⟩] } := rfl

/-- R54, R141: with no word, or half a two-word command, the block holds. -/
theorem test_step_holds_without_words : stopsWith .holdCommand (step State.reset) = true ∧
    stopsWith .holdExtension (step { State.reset with cmd := [0x82000000] }) = true := by decide

/-! ## System commands (V7) -/

theorem test_nop : reply (exec .nop State.reset) = some (false, 0) := by decide

/-- V7.2: refused on a faulted block, with the stored code. -/
theorem test_nop_refused : reply (exec .nop { State.reset with fault := 2 }) = some (true, 2) := by decide

/-- V7.2: `SRESET` leaves the faulted state. -/
theorem test_sreset : exec .sreset { State.reset with fault := 2, node := 3, inp := [7] } =
    .next { State.reset with inp := [7], resp := [⟨false, 0⟩] } := rfl

/-- V7.1, P5: `STATUS` of a faulted block in `ENC`. -/
theorem test_rdr_status : reply (exec (.rdr 1) { State.reset with fault := 3, phase := .enc }) = some (false, 0x301) := by
  decide

/-- V7.1: an unmapped index. -/
theorem test_rdr_unmapped : reply (exec (.rdr 0x1C) State.reset) = some (true, 3) := by decide

/-- V7.4: from reset. -/
theorem test_stop_idle : reply (exec .stop State.reset) = some (true, 2) := by decide

/-- V7.4: from `DEC`. -/
theorem test_stop_dec : view State.phase (exec .stop { State.reset with phase := .dec }) = some .idle := by decide

/-! ## VocabMap (V1) -/

/-- The mask of V1.1, {0x00, 0x1F, 0x41, 0xFF}. -/
def maskV11 : Mask := (1 <<< 0) ||| (1 <<< 31) ||| (1 <<< 65) ||| (1 <<< 255)

/-- V1.4: the flags go, `VSIZE` stays. -/
theorem test_vmclr : view (fun t => (t.vmask, t.status, t.vsize)) (exec .vmclr { State.reset with
    vmask := 0x80, vsize := 1, vmv := true, prv := true, bmv := true, plv := true }) = some (0, 0, 1) := by decide

/-- V1.3: every word of the mask is `FFFFFFFF`. -/
theorem test_vmall : view (fun t => (List.range 8).map (maskWord t.vmask)) (exec .vmall State.reset) =
    some (List.replicate 8 0xFFFFFFFF) := by decide

/-- V1.5: `VMARK 0x61` sets bit 1 of `VMASK3`. -/
theorem test_vmark : view (fun t => (List.range 8).map (maskWord t.vmask)) (exec (.vmark 0x61) State.reset) =
    some [0, 0, 0, 2, 0, 0, 0, 0] := by decide

/-- V1.6: not in a pass. -/
theorem test_vmark_in_pass : reply (exec (.vmark 1) { State.reset with phase := .enc }) = some (true, 2) := by decide

/-- V1.1: `SETMASK` replaces its word and leaves the others. -/
theorem test_setmask : view (fun t => (List.range 8).map (maskWord t.vmask))
    (exec (.setmask 2 0x00000002) { State.reset with vmask := BitVec.allOnes 256 }) =
    some [0xFFFFFFFF, 0xFFFFFFFF, 2, 0xFFFFFFFF, 0xFFFFFFFF, 0xFFFFFFFF, 0xFFFFFFFF, 0xFFFFFFFF] := by decide

/-- V1.1: `VMBUILD` answers 4 and sets `VMV`. -/
theorem test_vmbuild : view (fun t => (t.lastData, t.status)) (exec .vmbuild { State.reset with vmask := maskV11 }) =
    some (4, 8) := by decide +kernel

/-- V1.1: one pass of the loop at a present value, one at an absent value, and the fill, over stale tables. -/
theorem test_vmbuild_entries :
    let stale : Vector Entry 256 := Vector.replicate 256 9
    let present := mapStep maskV11 ⟨2, stale, stale⟩ 0x41
    let absent := mapStep maskV11 ⟨2, stale, stale⟩ 0x40
    (present.idx, readEntry present.fwd 0x41, readEntry present.inv 2) = (3, 2, 0x41) ∧
    (absent.idx, readEntry absent.fwd 0x40, readEntry absent.inv 2) = (2, 0x102, 9) ∧
    (readEntry (fillInv 254 stale) 253, readEntry (fillInv 254 stale) 255) = (9, 0x100) := by decide +kernel

/-- V1.1: an absent value, with the entry V1.1 gives. -/
theorem test_vmfwd : reply (exec (.vmfwd 0x40) { State.reset with
    vmv := true, fwd := State.reset.fwd.set 0x40 0x102 }) = some (false, 0x102) := by decide +kernel

/-- V1.4: before any build. -/
theorem test_vmfwd_without_map : reply (exec (.vmfwd 0) State.reset) = some (true, 2) := by decide

/-- V1.1: an index in use and one beyond `VSIZE`, with the entry V1.1 gives. -/
theorem test_vminv : [3, 4].map (fun i => reply (exec (.vminv i) { State.reset with
    vmv := true, inv := State.reset.inv.set 3 0xFF })) = [some (false, 0xFF), some (false, 0x100)] := by decide +kernel

/-! ## Header codec (V2) -/

theorem test_setlen : view State.len (exec (.setlen 0xFF 0xFFFFFFFE) State.reset) = some 0xFFFFFFFFFE := by decide

/-- V2.1, the mask {0x00, 0xFF} and L = 9999: SHORT, the mask overwritten. -/
theorem test_hdrw_short : view (fun t => (t.lastData, t.out, maskWord t.vmask 0, t.vmv))
    (exec .hdrw { State.reset with vmask := 1 ||| (1 <<< 255), len := 9999 }) =
    some (1, [0, 0, 0, 0x27, 0x0F], 0xFFFFFFFF, true) := by decide +kernel

/-- V2.1, the same mask and L = 10000: MAPPED. -/
theorem test_hdrw_mapped : view (fun t => (t.lastData, t.out, t.vsize, t.vmv))
    (exec .hdrw { State.reset with vmask := 1 ||| (1 <<< 255), len := 10000 }) =
    some (2, [0, 0, 0, 0x27, 0x10, 1] ++ List.replicate 30 0 ++ [0x80], 2, true) := by decide +kernel

/-- V2.2 on the bytes of V2.1's last row. -/
theorem test_hdrr_mapped : view (fun t => (t.lastData, t.len, t.inp, maskWord t.vmask 0, maskWord t.vmask 7))
    (exec .hdrr { State.reset with
      inp := [0xFF, 0xFF, 0xFF, 0xFF, 0xFF, 1] ++ List.replicate 30 0 ++ [0x80, 0x33] }) =
    some (2, 0xFFFFFFFFFF, [0x33], 1, 0x80000000) := by decide +kernel

/-- V2.3: 4 bytes, and 36 of 37. -/
theorem test_hdrr_holds : stopsWith .holdInput (exec .hdrr { State.reset with inp := [0, 0, 0, 0x27] }) = true ∧
    stopsWith .holdInput (exec .hdrr { State.reset with inp := [0, 0, 0, 0x27, 0x10] ++ List.replicate 31 0 }) = true := by
  decide

/-! ## Bit-tree walk (V3) -/

/-- V3, the last step of byte 0x41. -/
theorem test_btstep : view (fun t => (t.lastData, t.bitcnt))
    (exec (.btstep true) { State.reset with node := 0xA0, bitcnt := 7 }) = some (0x141, 8) := by decide

/-- V3: a ninth `BTSTEP`. -/
theorem test_btstep_ninth : reply (exec (.btstep true) { State.reset with node := 0x141, bitcnt := 8 }) =
    some (true, 2) := by decide

theorem test_btrst : view (fun t => (t.node, t.bitcnt)) (exec .btrst { State.reset with node := 0xD, bitcnt := 3 }) =
    some (1, 0) := by decide

/-! ## Predictor (V4), under the spec's fixtures -/

/-- A block with a model for the mask given, idle. -/
def modelled (st : PredState) (n : Len) : State :=
  { State.reset with vmv := true, prv := true, vsize := 1, pstate := st, len := n }

/-- V4.3: `F_EMPTY`. -/
theorem test_pinit_empty : reply (execPinitWith tp1 { State.reset with vmv := true }) = some (true, 4) := by decide

/-- V4.1: a second prediction, after one observed 1. -/
theorem test_ppred : view (fun t => (t.lastData, t.plast, t.pnode, t.status))
    (execPpredWith tp1 1 (modelled (tp1.observe (tp1.init (BitVec.allOnes 256)) 1 true 0x8000) 0)) =
    some (0x8800, 0x8800, 1, 0x58) := by decide +kernel

/-- V4.3: node 0 and node 0x100. -/
theorem test_ppred_range : reply (execPpredWith tp1 0 (modelled ⟨[]⟩ 0)) = some (true, 3) ∧
    reply (execPpredWith tp1 0x100 (modelled ⟨[]⟩ 0)) = some (true, 3) := by decide

/-- V4.1: the node differs from `PNODE`. -/
theorem test_pobs_other_node : reply (execPobsWith tp1 1 false { modelled ⟨[]⟩ 0 with plv := true, pnode := 2 }) =
    some (true, 3) := by decide

/-- V4.3: no prediction pending. -/
theorem test_pobs_none_pending : reply (execPobsWith tp1 1 false (modelled ⟨[]⟩ 0)) = some (true, 2) := by decide

/-! ## Coder (V5, P1, P2) -/

/-- An encoder with the given window. -/
def encoding (low high : Word) : State := { State.reset with phase := .enc, elow := low, ehigh := high }

theorem test_estart : view (fun t => (t.status, t.elow, t.ehigh)) (exec .estart { State.reset with ehigh := 5 }) =
    some (1, 0, 0xFFFFFFFF) := by decide

/-- V5, row 7: the narrowest window, four bytes settle. -/
theorem test_ebit_narrowest : view (fun t => (t.elow, t.ehigh, t.out))
    (exec (.ebit true 0x8000) (encoding 0x00FFFFFF 0x01000000)) =
    some (0, 0xFFFFFFFF, [0x00, 0xFF, 0xFF, 0xFF]) := by decide

/-- P1, command 10. -/
theorem test_ebit_upper : view (fun t => (t.elow, t.ehigh, t.out))
    (exec (.ebit false 0xABCD) (encoding 0x00040000 0x48D36EFF)) = some (0x30E0DD41, 0x48D36EFF, []) := by decide

/-- P2 under TP0: the byte 0x41 costs the byte 0xBE. -/
theorem test_encb : view (fun t => (t.out, t.elow, t.ehigh, t.node, t.count, t.pnode))
    (execEncbWith tp0 0x41 { encoding 0 0xFFFFFFFF with prv := true }) =
    some ([0xBE], 0, 0xFFFFFFFF, 1, 1, 0xA0) := by decide

/-- V7.5: a half-walked byte. -/
theorem test_encb_half_walked : reply (execEncbWith tp0 0x41 { encoding 0 0xFFFFFFFF with
    prv := true, node := 3, bitcnt := 1 }) = some (true, 2) := by decide

/-- P1, command 13. -/
theorem test_eflush : view (fun t => (t.out, t.phase)) (exec .eflush (encoding 0x30E0DD41 0x36DD81B0)) =
    some ([0x30, 0xE0, 0xDD, 0x41], .idle) := by decide

/-- V5: four bytes make `DCODE`, three hold. -/
theorem test_dstart : view (fun t => (t.dcode, t.inp)) (exec .dstart { State.reset with inp := [1, 2, 3, 4, 5] }) =
    some (0x01020304, [5]) ∧
    stopsWith .holdInput (exec .dstart { State.reset with inp := [1, 2, 3] }) = true := by decide

/-- P1's decoder before command 5. -/
def decoding (inp : List Byte) : State :=
  { State.reset with phase := .dec, dlow := 0x4C000000, dhigh := 0x4FFFFFFF, dcode := 0x4C0003FF, inp := inp }

/-- P1's decoder, command 5: two bytes settle. -/
theorem test_dbit : view (fun t => (t.lastData, t.dlow, t.dhigh, t.dcode, t.inp))
    (exec (.dbit 1) (decoding [0xFC, 0x30, 0xE0])) = some (1, 0, 0x03FFFFFF, 0x03FFFC30, [0xE0]) := by decide

/-- The same with one byte too few (R41): nothing is consumed. -/
theorem test_dbit_holds : stopsWith .holdInput (exec (.dbit 1) (decoding [0xFC])) = true := by decide

/-- V7.6: the composite completes when the fifth byte is there. -/
theorem test_decb : view (fun t => (t.lastData, t.out, t.count, t.dcode)) (execDecbWith tp0 { State.reset with
    phase := .dec, prv := true, dcode := 0xBE000000, inp := [0x55] }) = some (0x41, [0x41], 1, 0x00000055) := by decide

/-- V7.6: it holds while the byte is missing. -/
theorem test_decb_holds : stopsWith .holdInput (execDecbWith tp0 { State.reset with
    phase := .dec, prv := true, dcode := 0xBE000000 }) = true := by decide

/-! ## Sampler (V6, P4) -/

/-- V6.3: three symbols under TB0. -/
theorem test_sstart : view (fun t => (t.dist, t.status))
    (execSstartWith tb0 { State.reset with vmv := true, vsize := 3 }) = some ([0x5555, 0x5555, 0x5555], 0x2B) := by
  decide

/-- V6.5: `VMV = 0`, and an empty vocabulary. -/
theorem test_sstart_faults : reply (execSstartWith tb0 State.reset) = some (true, 2) ∧
    reply (execSstartWith tb0 { State.reset with vmv := true }) = some (true, 4) := by decide

/-- P4 before command 15: "abracadabra" marked, TB1 constructed; entry 0x61 of `FWD` as the build leaves it. -/
def training : State :=
  { State.reset with
    phase := .train, vmv := true, bmv := true, vsize := 5, fwd := State.reset.fwd.set 0x61 0
    inv := State.reset.inv.set 0 0x61, bstate := ⟨[1, 1, 1, 1, 1]⟩, dist := [13107, 13107, 13107, 13107, 13107] }

/-- P4, command 15: scored with the distribution before the update. -/
theorem test_trainb : view (fun t => (t.hacc.toInt, t.nsym, t.dist)) (execTrainbWith tb1 0x61 training) =
    some (-152172, 1, [21845, 10922, 10922, 10922, 10922]) := by decide +kernel

/-- V6.5: a byte outside the vocabulary. -/
theorem test_trainb_absent : reply (execTrainbWith tb1 0x62 training) = some (true, 5) := by decide +kernel

/-- P4, command 26; V6.5, `NSYM = 0`. -/
theorem test_xent : reply (exec .xent { training with hacc := 0xFFFFFFFFFFE53DAD, nsym := 11 }) =
    some (false, 0x26EC1) ∧ reply (exec .xent training) = some (true, 7) := by decide

/-- V6.2: `SEED 7` stores the seed itself. -/
theorem test_seed : view (fun t => (t.status, t.rng)) (exec (.seed 7) State.reset) = some (0x80, 7) := by decide

/-- V6.5: without a seed, and with one. -/
theorem test_gstart : reply (exec .gstart training) = some (true, 2) ∧
    view State.phase (exec .gstart { training with seeded := true }) = some .gen := by decide

/-- V6.3: the scan runs out and the last index is taken. -/
theorem test_genb_fallback : view (fun t => (t.lastData, t.out, t.rng)) (execGenbWith tb0 { State.reset with
      phase := .gen, vsize := 3, bstate := ⟨[3]⟩, dist := [0x5555, 0x5555, 0x5555], rng := 0x8ABB
      inv := ((State.reset.inv.set 0 0x61).set 1 0x62).set 2 0x63 }) =
    some (0x63, [0x63], 0xFFFF80DE) := by decide +kernel

/-- P4, command 29, with its update. -/
theorem test_genb : view (fun t => (t.lastData, t.dist, t.count)) (execGenbWith tb1 { training with
      phase := .gen, rng := 0x3039, bstate := ⟨[6, 3, 2, 2, 3]⟩, dist := [24576, 12288, 8192, 8192, 12288] }) =
    some (0x61, [26985, 11565, 7710, 7710, 11565], 1) := by decide +kernel

/-- V6.4: the last index in use and the first beyond. -/
theorem test_sdist : reply (exec (.sdist 4) training) = some (false, 13107) ∧
    reply (exec (.sdist 5) training) = some (true, 3) := by decide

/-- V6.1: three rows of the table of `LOG2FX`. -/
theorem test_log2fx : [log2fx 1, log2fx 43690, log2fx 65535, log2fx 65536] = [-1048576, -38338, -2, 0] := by
  decide +kernel

/-! ## Host side (R146) -/

/-- Hardware reset while `DSTART` holds abandons it; the word after it stays. -/
theorem test_hardReset : ({ State.reset with cmd := [0x40000000, 0], inp := [9] } : State).hardReset =
    { State.reset with cmd := [0], inp := [9] } := rfl

/-! ## Witnesses: for each statement with hypotheses, states and operands that meet them -/

/-- A block in `ENC` at the start of a byte, a predictor constructed, words at the port. -/
def inEnc (is : List Instr) : State :=
  { State.reset with phase := .enc, vmv := true, prv := true, vsize := 1, cmd := assemble is }

/-- The same in `DEC`. -/
def inDec (is : List Instr) (inp : List Byte) : State :=
  { State.reset with phase := .dec, vmv := true, prv := true, vsize := 1, cmd := assemble is, inp := inp }

/-- The map of the mask {0x00}: the tables, the size and the flag. -/
def oneValue : State :=
  { State.reset with
    vmask := 1, vsize := 1, vmv := true, fwd := (Vector.replicate 256 0x101).set 0 0
    inv := (Vector.replicate 256 absentEntry).set 0 0 }

/-- A generation pass over that vocabulary. -/
def inGen (is : List Instr) : State :=
  { oneValue with phase := .gen, bmv := true, seeded := true, dist := [65536], cmd := assemble is }

/-- A pending prediction for node 1, whatever `PRED` is. -/
def latched (is : List Instr) : State :=
  { State.reset with
    vmv := true, prv := true, vsize := 1, plv := true, pnode := 1
    plast := State.reset.prediction Config.pred 1, cmd := assemble is }

theorem latched_latchFresh (is : List Instr) : (latched is).latchFresh := fun _ => ⟨rfl, show nodeInRange 1 by decide, rfl⟩

theorem rank_mask_one (v : Nat) (h : 1 ≤ v) : rank 1 v = 1 := by
  induction v with
  | zero => omega
  | succ v ih =>
    rcases Nat.eq_zero_or_pos v with rfl | hv
    · rfl
    · have hr := ih hv
      have hb : BitVec.getLsbD (1 : Mask) v = false := by simp; omega
      simp only [rank] at *
      rw [List.range_succ, List.countP_append, hr]
      simp only [List.countP_singleton, hb]
      rfl

theorem readEntry_set_zero (x y : Entry) (i : Nat) (h : i < 256) :
    readEntry ((Vector.replicate 256 x).set 0 y) i = if i = 0 then y else x := by
  simp [readEntry, Vector.getD, h, Array.getElem_set, eq_comm]

theorem presentValues_mask_one : presentValues 1 = [0] := by decide +kernel

theorem oneValue_mapMatches : oneValue.mapMatches := by
  refine ⟨by rw [show oneValue.vmask = 1 from rfl, presentValues_mask_one]; rfl, fun b => ?_, fun i => ?_⟩
  · rw [State.forward, show oneValue.vmask = 1 from rfl,
      show oneValue.fwd = (Vector.replicate 256 0x101).set 0 0 from rfl, readEntry_set_zero _ _ _ b.isLt]
    rcases Nat.eq_zero_or_pos b.toNat with h | h
    · rw [h]
      rfl
    · have hg : BitVec.getLsbD (1 : Mask) b.toNat = false := by simp; omega
      rw [expectedForward, hg, rank_mask_one _ h, if_neg (by omega)]
      rfl
  · rw [State.inverse, show oneValue.inv = (Vector.replicate 256 absentEntry).set 0 0 from rfl,
      readEntry_set_zero _ _ _ i.isLt, expectedInverse, show oneValue.vmask = 1 from rfl, presentValues_mask_one]
    rcases Nat.eq_zero_or_pos i.toNat with h | h
    · rw [h]
      rfl
    · obtain ⟨k, hk⟩ := Nat.exists_eq_add_of_le' h
      rw [hk]
      rfl

theorem inGen_modelsMatch (is : List Instr) : (inGen is).modelsMatch := by
  refine ⟨fun _ => oneValue_mapMatches, fun h => ?_, fun _ => ⟨rfl, ?_, rfl, ?_⟩, fun _ => rfl, fun _ => rfl⟩
  · cases h
  · rw [show (inGen is).vsize = 1 from rfl]
    decide
  · rw [show (inGen is).dist = [65536] from rfl]
    simp

/-! ### Encoding and decoding -/

theorem witness_DecodedWordsAreTheEncoding : decode 0x80000003 7 = .command (.setmask 3 7) ∧
    decode 0x3101FFFF 7 = .command (.ebit true 0xFFFF) := by decide

theorem witness_FirstWordSelectsItsRow :
    (decode 0x82000000 7 = .command (.seed 7) ∧ decode 0x0200001B 7 = .command (.rdr 0x1B)) ∧
    (∃ row ∈ opcodeMap, row.selects 0x3101FFFF = true) ∧ (∃ row ∈ opcodeMap, row.selects 0x80000007 = true) := by
  decide

/-- A one-word and a two-word illegal command at the port. -/
theorem witness_IllegalFirstWordFaults :
    (State.reset.fault = 0 ∧ (∀ row ∈ opcodeMap, row.selects 0x31020000 = false) ∧ hasExtension 0x31020000 = false ∧
      ({ State.reset with cmd := [0x31020000, 5] } : State).cmd = 0x31020000 :: [5]) ∧
    ((∀ row ∈ opcodeMap, row.selects 0x83000000 = false) ∧ hasExtension 0x83000000 = true ∧
      ({ State.reset with cmd := [0x83000000, 5] } : State).cmd = 0x83000000 :: 5 :: []) := by decide

/-! ### The step -/

theorem witness_StepRunsTheFetchedCommand :
    fetch ({ State.reset with cmd := [0x82000000, 7, 0x03000000] } : State).cmd = .command (.seed 7) [0x03000000] ∧
    ({ State.reset with cmd := encode (.seed 7) ++ [0x03000000] } : State).cmd = encode (.seed 7) ++ [0x03000000] := by
  decide

/-- The third clause, for each of the four commands. -/
theorem witness_StepHoldsOnlyForWordsOrInput :
    stopsWith .holdInput (step { State.reset with cmd := encode .hdrr, inp := [0, 0, 0, 0] }) = true ∧
    stopsWith .holdInput (step { State.reset with cmd := encode .dstart, inp := [0, 0, 0] }) = true ∧
    stopsWith .holdInput (step { decoding [0xFC] with cmd := encode (.dbit 1) }) = true := by decide

/-! ### Faults -/

/-- A faulted block; a command that is not `SRESET`; an unmapped and a mapped index at the boundary; an illegal word. -/
theorem witness_FaultedBlockRefuses :
    ({ State.reset with fault := 2 } : State).fault ≠ 0 ∧
    (Instr.rdr 0x1C ≠ .sreset ∧ ∀ r, Instr.rdr 0x1C = .rdr r → 0x1B < r.toNat) ∧
    (Instr.genb ≠ .sreset ∧ ∀ r, Instr.genb = .rdr r → 0x1B < r.toNat) ∧
    fetch ({ State.reset with fault := 2, cmd := [0x7F000000] } : State).cmd = .illegal .unassignedOpcode [] ∧
    (0x1B : Byte).toNat ≤ 0x1B := by
  refine ⟨by decide, ⟨by decide, ?_⟩, ⟨by decide, ?_⟩, by decide, by decide⟩
  · intro r h
    cases h
    decide
  · intro r h
    cases h

theorem witness_FaultsArePrecise : State.reset.fault = 0 ∧
    (∃ t, exec (.rdr 0x1C) State.reset = .next t ∧ t.fault ≠ 0) ∧
    ∃ t, step { State.reset with cmd := [0x83000000, 5] } = .next t ∧ t.fault ≠ 0 :=
  ⟨rfl, ⟨_, rfl, by decide⟩, _, rfl, by decide⟩

theorem witness_EveryCommandEndsWithOneResponse :
    (∃ t, step { State.reset with cmd := encode .nop } = .next t) ∧
    ∃ t, step { State.reset with cmd := [0x7F000000] } = .next t := ⟨⟨_, rfl⟩, _, rfl⟩

/-- Each of the three ways. -/
theorem witness_FaultKeepsTheFirstCode :
    (∃ t, step { State.reset with fault := 2, cmd := encode .nop } = .next t ∧ t.fault = 2) ∧
    (∃ t, step { State.reset with cmd := encode .stop } = .next t ∧ t.fault = 2) ∧
    (∃ rest, fetch ({ State.reset with fault := 2, cmd := encode .sreset } : State).cmd = .command .sreset rest) ∧
    ∃ t, step { State.reset with fault := 2, cmd := encode .sreset } = .next t ∧ t.fault = 0 :=
  ⟨⟨_, rfl, rfl⟩, ⟨_, rfl, rfl⟩, ⟨[], rfl⟩, _, rfl, rfl⟩

theorem witness_IllFormedCommandsOnlyFault (is : List Instr) :
    (Instr.pobs 0 true).wellFormed = false ∧ (Instr.ppred 0x100).wellFormed = false ∧
    (Instr.rdr 0x1C).wellFormed = false ∧ (Instr.ebit true 0).wellFormed = false ∧ (Instr.dbit 0).wellFormed = false ∧
    (latched is).fault = 0 ∧ (latched is).latchFresh :=
  ⟨by decide, by decide, by decide, by decide, by decide, rfl, latched_latchFresh is⟩

/-! ### The phase machine -/

theorem witness_IllegalPhaseFaults : State.reset.fault = 0 ∧ legalIn .stop State.reset.phase = false ∧
    legalIn (.trainb 0) (inGen []).phase = false ∧ (inGen []).fault = 0 := by decide

/-- A transition, and each command of the table in a phase it is not legal from. -/
theorem witness_PhaseMovesOnlyByTheTable :
    (∃ t, exec .estart State.reset = .next t ∧ t.fault = 0 ∧ phaseMove .estart State.reset.phase .enc) ∧
    (∀ q, ¬phaseMove .stop .idle q) ∧ (∀ q, ¬phaseMove .stop .enc q) ∧ (∀ q, ¬phaseMove .estart .gen q) ∧
    (∀ q, ¬phaseMove .eflush .idle q) ∧ (∀ q, ¬phaseMove .dstart .dec q) ∧ (∀ q, ¬phaseMove .sstart .enc q) ∧
    (∀ q, ¬phaseMove .gstart .gen q) :=
  ⟨⟨_, rfl, rfl, by simp [phaseMove, State.reset]⟩, by simp [phaseMove], by simp [phaseMove], by simp [phaseMove], by simp [phaseMove],
    by simp [phaseMove], by simp [phaseMove], by simp [phaseMove]⟩

/-- The widest use of each stream: 37 bytes of IN, 37 bytes of OUT, a two-word command. -/
theorem witness_StreamsMoveOneWay :
    view (fun t => t.inp.length) (step { State.reset with
      cmd := encode .hdrr, inp := [0, 0, 0, 0x27, 0x10] ++ List.replicate 33 0 }) = some 1 ∧
    view (fun t => t.out.length) (step { State.reset with cmd := encode .hdrw, len := 10000 }) = some 37 ∧
    view (fun t => t.cmd.length) (step { State.reset with cmd := encode (.seed 7) ++ [0] }) = some 1 := by
  decide +kernel

theorem witness_VocabularyIsFixedDuringAPass : (inEnc []).phase ≠ .idle ∧ Instr.encb 0x41 ≠ .sreset ∧
    ∃ t, exec (.encb 0x41) (inEnc []) = .next t := ⟨by decide, by decide, _, rfl⟩

/-- Each writer runs. -/
theorem witness_ModelStatesHaveTheirWriters :
    (∃ t, exec .pinit oneValue = .next t) ∧ (∃ t, exec (.pobs 1 true) (latched []) = .next t) ∧
    (∃ t, exec (.encb 0x41) (inEnc []) = .next t) ∧ (∃ t, exec .sstart oneValue = .next t) ∧
    (∃ t, exec (.trainb 0x61) training = .next t) ∧ ∃ t, exec .genb (inGen []) = .next t :=
  ⟨next_of_goesOn rfl, next_of_goesOn rfl, next_of_goesOn rfl, next_of_goesOn rfl, next_of_goesOn (by decide +kernel),
    next_of_goesOn rfl⟩

/-! ### System commands -/

theorem witness_NopAnswersAndChangesNothing : State.reset.fault = 0 ∧
    ({ State.reset with fault := 7 } : State).fault ≠ 0 := by decide

theorem witness_RdrReadsTheRegisterMap : State.reset.fault = 0 ∧ 0x1B < (0x1C : Byte).toNat ∧
    0x1B < (0xFF : Byte).toNat ∧ ({ State.reset with fault := 7 } : State).fault ≠ 0 := by decide

theorem witness_StopEndsThePass : (decoding []).fault = 0 ∧ (decoding []).phase = .dec ∧ training.phase = .train ∧
    training.fault = 0 ∧ (inGen []).phase = .gen ∧ State.reset.phase = .idle ∧ (inEnc []).phase = .enc := by decide

/-! ### VocabMap -/

/-- `IDLE` and another phase, not faulted; the same witness serves every command that needs `IDLE`. -/
theorem witness_idle : State.reset.fault = 0 ∧ State.reset.phase = .idle ∧ (inEnc []).fault = 0 ∧
    (inEnc []).phase ≠ .idle := by decide

theorem witness_VmclrAndVmallWriteTheWholeMask : State.reset.fault = 0 ∧ State.reset.phase = .idle ∧
    (inEnc []).fault = 0 ∧ (inEnc []).phase ≠ .idle := witness_idle

theorem witness_VmarkSetsItsBit : State.reset.fault = 0 ∧ State.reset.phase = .idle ∧
    (inEnc []).fault = 0 ∧ (inEnc []).phase ≠ .idle ∧ 255 < 256 := by decide

theorem witness_SetmaskReplacesItsWord : State.reset.fault = 0 ∧ State.reset.phase = .idle ∧
    (inEnc []).fault = 0 ∧ (inEnc []).phase ≠ .idle ∧ 255 < 256 := by decide

theorem witness_VmbuildBuildsTheMap : State.reset.fault = 0 ∧ State.reset.phase = .idle ∧
    (inEnc []).fault = 0 ∧ (inEnc []).phase ≠ .idle := witness_idle

/-- The last value and the last index of the mask {0x00, 0xFF}. -/
theorem witness_ByteMapIsAnOrderedBijection :
    let s : State := { State.reset with vmask := 1 ||| (1 <<< 255) }
    s.vmask.getLsbD (0x00 : Byte).toNat = true ∧ s.vmask.getLsbD (0xFF : Byte).toNat = true ∧
    (0x00 : Byte).toNat < (0xFF : Byte).toNat ∧ 1 < s.buildMap.vsize.toNat := by decide +kernel

theorem witness_VmfwdAndVminvReadTheTables : oneValue.fault = 0 ∧ oneValue.vmv = true ∧ oneValue.mapMatches ∧
    State.reset.fault = 0 ∧ State.reset.vmv = false := ⟨rfl, rfl, oneValue_mapMatches, rfl, rfl⟩

/-! ### Header codec -/

theorem witness_SetlenLoadsTheLength : State.reset.fault = 0 ∧ State.reset.phase = .idle ∧
    (inEnc []).fault = 0 ∧ (inEnc []).phase ≠ .idle := witness_idle

/-- Each case of the length at its boundaries, the last bit of the bitmap. -/
theorem witness_HdrwWritesTheHeader : State.reset.fault = 0 ∧ State.reset.phase = .idle ∧ State.reset.len = 0 ∧
    (0 < (1 : Len).toNat ∧ (9999 : Len).toNat < 10000) ∧ 10000 ≤ (10000 : Len).toNat ∧ (31 < 32 ∧ 7 < 8) ∧
    (inEnc []).phase ≠ .idle := by decide

/-- Lengths 0, 1, 9999 and 10000 in IN, a bitmap one byte short and a whole one, a length field one byte short. -/
theorem witness_HdrrReadsTheHeader :
    let n (b0 b1 b2 b3 b4 : Byte) : Nat :=
      b0.toNat * 2 ^ 32 + b1.toNat * 2 ^ 24 + b2.toNat * 2 ^ 16 + b3.toNat * 2 ^ 8 + b4.toNat
    n 0 0 0 0 0 = 0 ∧ 0 < n 0 0 0 0 1 ∧ n 0 0 0 0x27 0x0F = 9999 ∧ n 0 0 0 0x27 0x10 = 10000 ∧
    (List.replicate 31 (0 : Byte)).length < 32 ∧ (List.replicate 32 (0 : Byte)).length = 32 ∧
    State.reset.inp.length < 5 ∧ State.reset.fault = 0 ∧ State.reset.phase = .idle ∧ (inEnc []).phase ≠ .idle ∧
    ({ State.reset with inp := [0, 0, 0, 0x27, 0x0F, 9] } : State).inp = 0 :: 0 :: 0 :: 0x27 :: 0x0F :: [9] := by decide

theorem witness_HdrrInvertsHdrw :
    let s : State := { State.reset with len := 4 }
    s.fault = 0 ∧ s.phase = .idle ∧ (∃ t, exec .hdrw s = .next t ∧ t.out = s.out ++ [0, 0, 0, 0, 4]) ∧
    ({ State.reset with inp := [0, 0, 0, 0, 4] ++ [9] } : State).inp = [0, 0, 0, 0, 4] ++ [9] :=
  ⟨rfl, rfl, ⟨_, rfl, rfl⟩, rfl⟩

/-! ### Bit-tree walk -/

theorem witness_BtrstAndBtstepMoveTheNode :
    let s : State := { State.reset with node := 255, bitcnt := 7 }
    let full : State := { State.reset with node := 511, bitcnt := 8 }
    s.fault = 0 ∧ (s.phase = .idle ∨ s.phase = .enc ∨ s.phase = .dec) ∧ s.bitcnt.toNat < 8 ∧ s.node.toNat < 2 ^ 8 ∧
    8 ≤ full.bitcnt.toNat ∧ (training.phase = .train ∨ training.phase = .gen) := by decide

theorem witness_WalkFollowsTheTreePath : State.reset.node = 1 ∧ State.reset.bitcnt = 0 ∧ 8 ≤ 8 ∧ 7 < 8 ∧ 7 ≤ 7 := by
  decide

/-- The last step of a walk, from `NODE` = 255. -/
theorem witness_TreePositionInvariant :
    let s : State := { State.reset with node := 255, bitcnt := 7, cmd := encode (.btstep true) }
    s.treeInRange ∧ ∃ t, step s = .next t ∧ t.node = 511 :=
  ⟨⟨by decide, by decide, by decide⟩, _, rfl, by decide⟩

/-! ### Adaptive predictor -/

theorem witness_PinitConstructsThePredictor : oneValue.fault = 0 ∧ oneValue.phase = .idle ∧ oneValue.vmv = true ∧
    1 ≤ oneValue.vsize.toNat ∧ State.reset.vmv = false ∧
    ({ State.reset with vmv := true } : State).vsize = 0 := by decide

theorem witness_PpredLatchesThePrediction : (inEnc []).fault = 0 ∧ (inEnc []).phase = .enc ∧ (inEnc []).prv = true ∧
    (1 ≤ (1 : Node).toNat ∧ (255 : Node).toNat ≤ 255) ∧ ((0 : Node).toNat = 0 ∧ 255 < (256 : Node).toNat) ∧
    training.phase = .train ∧ State.reset.prv = false := by decide

theorem witness_PobsConsumesThePrediction : (latched []).fault = 0 ∧ (latched []).phase = .idle ∧
    (latched []).prv = true ∧ (latched []).plv = true ∧ 1 = (latched []).pnode ∧ 2 ≠ (latched []).pnode ∧
    training.phase = .train ∧ State.reset.prv = false ∧ (inEnc []).plv = false :=
  ⟨rfl, rfl, rfl, rfl, rfl, by simp [latched], rfl, rfl, rfl⟩

/-- A pending prediction that a step keeps, and one that a step consumes. -/
theorem witness_LatchHoldsTheFreshPrediction :
    ((latched [.btrst]).latchFresh ∧ ∃ t, step (latched [.btrst]) = .next t ∧ t.plv = true) ∧
    (latched [.pobs 1 true]).latchFresh ∧ ∃ t, step (latched [.pobs 1 true]) = .next t ∧ t.plv = false :=
  ⟨⟨latched_latchFresh _, _, rfl, rfl⟩, latched_latchFresh _, _, rfl, rfl⟩

/-! ### Arithmetic coder -/

theorem witness_SplitDividesTheInterval : (0xFFFFFFFE : Word).toNat < (0xFFFFFFFF : Word).toNat ∧
    (0 : Word).toNat < (0xFFFFFFFF : Word).toNat := by decide

/-- An interval of one value, from which four bytes settle; IN one byte short of them, and IN with them. -/
theorem witness_NormaliseSettlesTheTopByte : (0x00FFFFFF : Word).toNat ≤ (0x00FFFFFF : Word).toNat ∧ 4 ≤ 4 ∧
    [1, 2, 3].length < (normaliseE 4 ⟨0x00FFFFFF, 0x00FFFFFF⟩).1.length ∧
    [1, 2, 3, 4].length = (normaliseE 4 ⟨0x00FFFFFF, 0x00FFFFFF⟩).1.length := by decide

theorem witness_EncoderCommandsCodeBits : State.reset.fault = 0 ∧ State.reset.phase = .idle ∧ (inEnc []).fault = 0 ∧
    (inEnc []).phase = .enc ∧ (1 : Prob) ≠ 0 ∧ (inEnc []).phase ≠ .idle ∧ State.reset.phase ≠ .enc := by decide

/-- `DSTART` with four bytes and with three; `DBIT` that needs two bytes with one and with two. -/
theorem witness_DecoderCommandsDecodeBits : State.reset.fault = 0 ∧ State.reset.phase = .idle ∧
    ({ State.reset with inp := [1, 2, 3, 4, 5] } : State).inp = 1 :: 2 :: 3 :: 4 :: [5] ∧
    ({ State.reset with inp := [1, 2, 3] } : State).inp.length < 4 ∧
    (decoding [0xFC]).fault = 0 ∧ (decoding [0xFC]).phase = .dec ∧ (1 : Prob) ≠ 0 ∧
    (let r := normaliseE 4 (narrow ⟨0x4C000000, 0x4FFFFFFF⟩ 1 true)
     (decoding [0xFC]).inp.length < r.1.length ∧ (decoding [0xFC, 0x30, 9]).inp = [0xFC, 0x30] ++ [9] ∧
     [0xFC, 0x30].length = r.1.length) ∧
    (decoding []).phase ≠ .idle ∧ State.reset.phase ≠ .dec := by decide

theorem witness_EncbIsTheWalkOfPrimitives : (inEnc []).fault = 0 ∧ (inEnc []).phase = .enc ∧ (inEnc []).prv = true ∧
    (inEnc []).node = 1 ∧ (inEnc []).bitcnt = 0 ∧ State.reset.phase ≠ .enc ∧ (encoding 0 1).prv = false ∧
    ({ inEnc [] with node := 3, bitcnt := 1 } : State).node ≠ 1 := by decide

theorem witness_DecbIsTheWalkOfPrimitives : (inDec [] (List.replicate 32 0)).fault = 0 ∧
    (inDec [] (List.replicate 32 0)).phase = .dec ∧ (inDec [] (List.replicate 32 0)).prv = true ∧
    (inDec [] (List.replicate 32 0)).node = 1 ∧ (inDec [] (List.replicate 32 0)).bitcnt = 0 ∧
    32 ≤ (inDec [] (List.replicate 32 0)).inp.length ∧ State.reset.phase ≠ .dec ∧ (decoding []).prv = false := by decide

/-- An encode and a decode pass with open windows, each about to code a bit. -/
theorem witness_CoderWindowsStayOpen :
    ((inEnc [.ebit true 1]).encoderOpen ∧ (inEnc [.ebit true 1]).decoderOpen ∧
      ∃ t, step (inEnc [.ebit true 1]) = .next t ∧ t.phase = .enc) ∧
    (inDec [.dbit 1] [7, 7]).encoderOpen ∧ (inDec [.dbit 1] [7, 7]).decoderOpen ∧
      ∃ t, step (inDec [.dbit 1] [7, 7]) = .next t ∧ t.phase = .dec :=
  ⟨⟨fun _ => by decide, fun h => absurd h (by decide), _, rfl, rfl⟩, fun h => absurd h (by decide),
    fun _ => ⟨by decide, by decide, by decide⟩, _, rfl, rfl⟩

/-- One bit coded, the four bytes it gives, and a decoder with them and one more byte in IN. -/
theorem witness_DecodeInvertsEncode :
    (∀ x ∈ [(true, (0x8000 : Prob))], x.2 ≠ 0) ∧ State.reset.fault = 0 ∧ State.reset.phase = .idle ∧
    (∃ t, execAll (.estart :: ebits [(true, 0x8000)] ++ [.eflush]) State.reset = .next t ∧
      t.out = State.reset.out ++ [0, 0, 0, 0]) ∧
    ({ State.reset with inp := [0, 0, 0, 0] ++ [9] } : State).inp = [0, 0, 0, 0] ++ [9] :=
  ⟨by simp, rfl, rfl, next_of_view (by decide +kernel), rfl⟩

theorem witness_DecompressInvertsCompress : 1 ≤ [(0x41 : Byte)].length ∧ [(0x41 : Byte)].length ≤ 2 ^ 40 - 1 := by decide

/-! ### Generative sampler -/

theorem witness_SamplerPassCommandsOpenPasses : oneValue.fault = 0 ∧ oneValue.phase = .idle ∧ oneValue.vmv = true ∧
    1 ≤ oneValue.vsize.toNat ∧ 0 < oneValue.vsize.toNat ∧ State.reset.vmv = false ∧
    (inEnc []).phase ≠ .idle ∧ ({ State.reset with vmv := true } : State).vsize = 0 ∧
    ({ training with seeded := true } : State).phase = .train ∧ training.seeded = false ∧ training.fault = 0 := by decide

/-- A byte of the vocabulary with a mass; one outside it; one whose mass is 0. -/
theorem witness_TrainbScoresThenUpdates : training.fault = 0 ∧ training.phase = .train ∧
    (training.forward 0x61).getLsbD 8 = false ∧ training.mass (training.forward 0x61).toNat ≠ 0 ∧
    4 < training.vsize.toNat ∧ State.reset.phase ≠ .train ∧ (training.forward 0x62).getLsbD 8 = true ∧
    ({ training with dist := [0, 1, 1, 1, 1] } : State).mass (training.forward 0x61).toNat = 0 := by decide +kernel

/-- The largest average R115 allows, 16 bits per symbol; no symbol; the last index and the first beyond. -/
theorem witness_XentAndSdistReport :
    let s : State := { training with hacc := BitVec.ofInt 64 (-2097152), nsym := 2 }
    s.fault = 0 ∧ s.phase = .train ∧ s.nsym ≠ 0 ∧ s.hacc.toInt ≤ 0 ∧
    -s.hacc.toInt / (s.nsym.toNat : Int) < 2 ^ 32 ∧ -s.hacc.toInt ≤ 2 ^ 20 * (s.nsym.toNat : Int) ∧
    training.nsym = 0 ∧ (4 : Byte).toNat < s.vsize.toNat ∧ s.vsize.toNat ≤ (5 : Byte).toNat ∧
    State.reset.phase = .idle := by decide

theorem witness_GenbSamplesByInverseCdf : (inGen []).fault = 0 ∧ (inGen []).phase = .gen ∧
    1 ≤ (inGen []).vsize.toNat ∧ 0 < (inGen []).vsize.toNat ∧ State.reset.phase ≠ .gen := by decide

/-- The two ends of the range, and the last pair of neighbours. -/
theorem witness_LogarithmIsBoundedBelowTheRealOne : 1 ≤ 1 ∧ 1 ≤ 65536 ∧ 65535 ≤ 65536 ∧ 65536 ≤ 65536 := by decide

theorem witness_ModelsMatchTheVocabulary : (inGen [.genb]).modelsMatch ∧ ∃ t, step (inGen [.genb]) = .next t :=
  ⟨inGen_modelsMatch _, _, rfl⟩

theorem witness_GeneratedBytesAreInTheVocabulary : (inGen []).modelsMatch ∧ (inGen []).fault = 0 ∧
    (inGen []).phase = .gen := ⟨inGen_modelsMatch _, rfl, rfl⟩

/-! ### Hardware reset and the fixtures -/

/-- No held command; half a two-word command; a command held on IN. -/
theorem witness_HardResetAbandonsTheHeldCommand : State.reset.holding = false ∧ hasExtension 0x82000000 = true ∧
    ({ State.reset with cmd := [0x82000000] } : State).cmd = [0x82000000] ∧
    fetch ({ State.reset with cmd := [0x40000000, 0] } : State).cmd = .command .dstart [0] ∧
    stopsWith .holdInput (step { State.reset with cmd := [0x40000000, 0] }) = true := by decide

/-- TP1 with the two extreme values in its table, over the mask {0x00}. -/
def tp1Extremes : PredState := ⟨[1, 0, tp1Cell 0 1 1, tp1Cell 0 255 65535]⟩

theorem tp1Extremes_inRange (h : Nat) (node : Node) :
    1 ≤ (tp1Entry tp1Extremes h node).toNat ∧ (tp1Entry tp1Extremes h node).toNat ≤ 65535 := by
  refine ⟨?_, by omega⟩
  simp only [tp1Entry, tp1Extremes, tp1Read, List.drop_succ_cons, List.drop_zero, List.find?]
  cases tp1Cell 0 1 1 / 65536 == h * 512 + node.toNat <;>
    cases tp1Cell 0 255 65535 / 65536 == h * 512 + node.toNat <;> decide

/-- TP0 from the whole window; TP1 with entries at both ends of the range, and at a node that ends a byte. -/
theorem witness_PredictorFixturesBehave : (inEnc []).fault = 0 ∧ (inEnc []).phase = .enc ∧ (inEnc []).prv = true ∧
    (inEnc []).node = 1 ∧ (inEnc []).bitcnt = 0 ∧ (inEnc []).elow = 0 ∧ (inEnc []).ehigh = 0xFFFFFFFF ∧
    (∀ (h : Nat) (node : Node),
      1 ≤ (tp1Entry tp1Extremes h node).toNat ∧ (tp1Entry tp1Extremes h node).toNat ≤ 65535) ∧
    (tp1.predict tp1Extremes 1 = 1 ∧ (1 : Node).toNat < 128) ∧
    (tp1.predict tp1Extremes 255 = 65535 ∧ 128 ≤ (255 : Node).toNat) :=
  ⟨by decide, by decide, by decide, by decide, by decide, by decide, by decide, tp1Extremes_inRange, by decide,
    by decide⟩

theorem witness_ByteModelFixturesBehave : 1 ≤ 1 ∧ 256 ≤ 256 ∧ [1, 255] ≠ [] ∧ ∀ c ∈ [1, 255], 1 ≤ c := by decide

end Sys2Proof.Tests
end

/-! # What a command and a step can do

Every invariant below is a case split over the kinds of effect a completed command has, so the commands are taken
apart once. -/

namespace Sys2Proof.Machine

/-- The effects a command can have when it is neither refused nor faults. A kind several commands share names no
command; the values that the coder, the predictor and the byte-level model compute are left open (the `exec…_next`
lemmas give them). -/
inductive Effect (s : State) : Instr → State → Prop
  /-- `SRESET` (R126). -/
  | reset : Effect s .sreset (s.resetBlock.answer false 0)
  /-- Only a response: `NOP`, `RDR`, `VMFWD`, `VMINV`, `XENT`, `SDIST`. -/
  | read (i : Instr) (d : Word) : Effect s i (s.answer false d)
  /-- A new mask without a map: `VMCLR`, `VMALL`, `VMARK`, `SETMASK`, and the header commands at length 0 (R62). -/
  | mask (i : Instr) (m : Mask) (len : Len) (inp out : List Byte) (d : Word) (idle : s.phase = .idle) :
      Effect s i (({ s with vmask := m, len := len, inp := inp, out := out } : State).maskChanged.answer false d)
  /-- A mask with its map: `VMBUILD`, and the header commands at a positive length (R67). -/
  | map (i : Instr) (m : Mask) (len : Len) (inp out : List Byte) (d : Word) (idle : s.phase = .idle) :
      Effect s i (({ s with vmask := m, len := len, inp := inp, out := out } : State).buildMap.answer false d)
  /-- `SETLEN` (R73). -/
  | length (i : Instr) (len : Len) (idle : s.phase = .idle) :
      Effect s i (({ s with len := len } : State).answer false 0)
  /-- `BTRST` (R79). -/
  | treeReset (i : Instr) : Effect s i (s.treeReset.answer false 0)
  /-- `BTSTEP` (R80). -/
  | treeStep (i : Instr) (bit : Bool) (d : Word) (room : s.bitcnt.toNat < 8) :
      Effect s i ((s.treeStep bit).answer false d)
  /-- `PINIT` (R86). -/
  | pinit (p : PredState) (idle : s.phase = .idle) (mapped : s.vmv = true) (nonempty : 1 ≤ s.vsize.toNat) :
      Effect s .pinit (({ s with pstate := p, prv := true, plv := false } : State).answer false 0)
  /-- `PPRED` (R87). -/
  | ppred (i : Instr) (p : Prob) (node : Node) (d : Word) :
      Effect s i (({ s.latch p node with plv := true } : State).answer false d)
  /-- `POBS` (R88). -/
  | pobs (node : Node) (bit : Bool) (p : PredState) :
      Effect s (.pobs node bit) (({ s with pstate := p, plv := false } : State).answer false 0)
  /-- A pass of the coder begins: `ESTART`, `DSTART` (R96, R100). -/
  | startCoder (i : Instr) (q : Phase) (elow ehigh dlow dhigh dcode : Word) (inp : List Byte)
      (coder : q = .enc ∨ q = .dec) (idle : s.phase = .idle) :
      Effect s i (({ s.startPass with elow := elow, ehigh := ehigh, dlow := dlow, dhigh := dhigh, dcode := dcode,
                                      inp := inp, phase := q } : State).answer false 0)
  /-- One decision: `EBIT`, `DBIT` (R97, R101). -/
  | codeBit (i : Instr) (elow ehigh dlow dhigh dcode : Word) (inp out : List Byte) (d : Word) :
      Effect s i (({ s with elow := elow, ehigh := ehigh, dlow := dlow, dhigh := dhigh, dcode := dcode,
                            inp := inp, out := out } : State).answer false d)
  /-- One whole byte: `ENCB`, `DECB` (R98, R102). -/
  | codeByte (i : Instr) (elow ehigh dlow dhigh dcode : Word) (inp out : List Byte) (node : Node)
      (bitcnt : BitVec 4) (plast : Prob) (pnode : Node) (p : PredState) (d : Word)
      (coder : (∃ b, i = .encb b) ∨ i = .decb) :
      Effect s i (({ s with elow := elow, ehigh := ehigh, dlow := dlow, dhigh := dhigh, dcode := dcode, inp := inp,
                            out := out, node := node, bitcnt := bitcnt, plast := plast, pnode := pnode,
                            pstate := p } : State).endByte.answer false d)
  /-- The end of a pass: `EFLUSH`, `STOP` (R99, R128). -/
  | endPass (i : Instr) (out : List Byte) :
      Effect s i (({ s with out := out, phase := .idle } : State).answer false 0)
  /-- `SSTART` (R113). -/
  | sstart (r : ByteState × (Nat → Nat)) (idle : s.phase = .idle) (mapped : s.vmv = true)
      (nonempty : 1 ≤ s.vsize.toNat) :
      Effect s .sstart
        (({ s.setModel r with bmv := true, hacc := 0, nsym := 0, phase := .train } : State).answer false 0)
  /-- `TRAINB` (R114). -/
  | trainb (b : Byte) (r : ByteState × (Nat → Nat)) (hacc : BitVec 64) (nsym : Len) (train : s.phase = .train) :
      Effect s (.trainb b) (({ s.setModel r with hacc := hacc, nsym := nsym } : State).answer false 0)
  /-- `SEED` (R116). -/
  | seed (i : Instr) (rng : Word) : Effect s i (({ s with rng := rng, seeded := true } : State).answer false 0)
  /-- `GSTART` (R117). -/
  | gstart (i : Instr) (train : s.phase = .train) (seeded : s.seeded = true) :
      Effect s i (({ s with count := 0, phase := .gen } : State).answer false 0)
  /-- `GENB` (R118). -/
  | genb (r : ByteState × (Nat → Nat)) (rng : Word) (count : Len) (out : List Byte) (d : Word)
      (gen : s.phase = .gen) :
      Effect s .genb
        (({ s.setModel r with rng := rng, count := count, out := out } : State).answer false d)

/-! ### The commands whose effect takes a frame lemma to see -/

theorem effect_of_writeHeader {s t : State} (hp : s.phase = .idle) (h : writeHeader s = .next t) (i : Instr) :
    Effect s i t := by
  obtain ⟨bytes, d, -, rfl | ⟨m, rfl⟩⟩ := writeHeader_frame h
  · exact .mask i s.vmask s.len s.inp _ d hp
  · exact .map i m s.len s.inp _ d hp

theorem effect_of_readHeader {s t : State} (hp : s.phase = .idle) (h : readHeader s = some (.next t)) (i : Instr) :
    Effect s i t := by
  obtain ⟨used, rest, l, d, -, -, rfl | ⟨m, rfl⟩⟩ := readHeader_frame h
  · exact .mask i s.vmask l rest s.out d hp
  · exact .map i m l rest s.out d hp

theorem effect_of_startDecoder {s t : State} (hp : s.phase = .idle) (h : startDecoder s = some (.next t))
    (i : Instr) : Effect s i t := by
  obtain ⟨coded, rest, -, -, rfl⟩ := startDecoder_next h
  exact .startCoder i .dec s.elow s.ehigh _ _ _ rest (.inr rfl) hp

theorem effect_of_decodeBit {s t : State} {p : Prob} {bit : Bool} (h : s.decodeBit p = some (bit, t)) (i : Instr)
    (d : Word) : Effect s i (t.answer false d) := by
  obtain ⟨win, rest, -, rfl⟩ := decodeBit_some h
  exact .codeBit i s.elow s.ehigh _ _ _ rest s.out d

theorem effect_of_encodeWalk (P : Pred) (s : State) (bits : List Bool) (b : Byte) :
    Effect s (.encb b) ((s.encodeWalk P bits).endByte.answer false 0) := by
  obtain ⟨elow, ehigh, out, node, bitcnt, plast, pnode, p, h, -⟩ := encodeWalk_frame P bits s
  rw [h]
  exact .codeByte _ elow ehigh s.dlow s.dhigh s.dcode s.inp _ node bitcnt plast pnode p 0 (.inl ⟨b, rfl⟩)

theorem effect_of_decodeWalk {P : Pred} {n : Nat} {s u : State} (h : State.decodeWalk P n s = some u)
    (bytes : List Byte) (d : Word) : Effect s .decb ((u.endByte.emit bytes).answer false d) := by
  obtain ⟨dlow, dhigh, dcode, node, bitcnt, plast, pnode, p, used, hu, -, -⟩ := decodeWalk_frame P n h
  rw [hu]
  exact .codeByte _ s.elow s.ehigh dlow dhigh dcode u.inp (s.out ++ bytes) node bitcnt plast pnode p d (.inr rfl)

/-! ### Every command -/

/-- Replaces a command's own outcome by its kind of effect. -/
theorem effect_of_outcome {s t : State} {i : Instr} {own : Prop} (h : Refused s t ∨ Raised s t ∨ own)
    (f : own → Effect s i t) : Refused s t ∨ Raised s t ∨ Effect s i t :=
  h.imp_right (.imp_right f)

/-- What executing a command can answer: the refusal of a faulted block, a fault, or its effect. -/
theorem exec_next {i : Instr} {s t : State} (h : exec i s = .next t) :
    Refused s t ∨ Raised s t ∨ Effect s i t := by
  cases i with
  | nop => exact effect_of_outcome (execNop_next h) fun ⟨_, e⟩ => e ▸ .read _ _
  | sreset => exact .inr (.inr (execSreset_next h ▸ .reset))
  | rdr r => exact effect_of_outcome (execRdr_next h) fun ⟨_, _, e⟩ => e ▸ .read _ _
  | stop => exact effect_of_outcome (execStop_next h) fun ⟨_, _, e⟩ => e ▸ .endPass _ s.out
  | vmclr => exact effect_of_outcome (execVmclr_next h) fun ⟨_, hp, e⟩ => e ▸ .mask _ _ s.len s.inp s.out 0 hp
  | vmall => exact effect_of_outcome (execVmall_next h) fun ⟨_, hp, e⟩ => e ▸ .mask _ _ s.len s.inp s.out 0 hp
  | vmark b => exact effect_of_outcome (execVmark_next h) fun ⟨_, hp, e⟩ => e ▸ .mask _ _ s.len s.inp s.out 0 hp
  | vmbuild =>
    exact effect_of_outcome (execVmbuild_next h) fun ⟨_, hp, e⟩ => e ▸ .map _ s.vmask s.len s.inp s.out _ hp
  | vmfwd b => exact effect_of_outcome (execVmfwd_next h) fun ⟨_, _, e⟩ => e ▸ .read _ _
  | vminv i => exact effect_of_outcome (execVminv_next h) fun ⟨_, _, e⟩ => e ▸ .read _ _
  | hdrw => exact effect_of_outcome (execHdrw_next h) fun ⟨_, hp, hw⟩ => effect_of_writeHeader hp hw _
  | hdrr => exact effect_of_outcome (execHdrr_next h) fun ⟨_, hp, hr⟩ => effect_of_readHeader hp hr _
  | estart =>
    exact effect_of_outcome (execEstart_next h) fun ⟨_, hp, e⟩ =>
      e ▸ .startCoder _ .enc _ _ s.dlow s.dhigh s.dcode s.inp (.inl rfl) hp
  | ebit bit p =>
    exact effect_of_outcome (execEbit_next h) fun ⟨_, _, _, e⟩ => e ▸ .codeBit _ _ _ s.dlow s.dhigh s.dcode s.inp _ 0
  | encb b => exact effect_of_outcome (execEncb_next h) fun ⟨_, _, _, _, e⟩ => e ▸ effect_of_encodeWalk _ s _ b
  | eflush => exact effect_of_outcome (execEflush_next h) fun ⟨_, _, e⟩ => e ▸ .endPass _ _
  | dstart => exact effect_of_outcome (execDstart_next h) fun ⟨_, hp, hd⟩ => effect_of_startDecoder hp hd _
  | dbit p =>
    exact effect_of_outcome (execDbit_next h) fun ⟨_, _, _, _, _, hd, e⟩ => e ▸ effect_of_decodeBit hd _ _
  | decb =>
    exact effect_of_outcome (execDecb_next h) fun ⟨_, _, _, _, _, hd, e⟩ => e ▸ effect_of_decodeWalk hd _ _
  | pinit => exact effect_of_outcome (execPinit_next h) fun ⟨_, hp, hv, hs, e⟩ => e ▸ .pinit _ hp hv hs
  | ppred node => exact effect_of_outcome (execPpred_next h) fun ⟨_, _, _, _, e⟩ => e ▸ .ppred _ _ _ _
  | pobs node bit => exact effect_of_outcome (execPobs_next h) fun ⟨_, _, _, _, _, e⟩ => e ▸ .pobs _ _ _
  | btrst => exact effect_of_outcome (execBtrst_next h) fun ⟨_, _, e⟩ => e ▸ .treeReset _
  | btstep bit => exact effect_of_outcome (execBtstep_next h) fun ⟨_, _, hb, e⟩ => e ▸ .treeStep _ _ _ hb
  | sstart => exact effect_of_outcome (execSstart_next h) fun ⟨_, hp, hv, hs, e⟩ => e ▸ .sstart _ hp hv hs
  | trainb b => exact effect_of_outcome (execTrainb_next h) fun ⟨_, hp, _, _, e⟩ => e ▸ .trainb _ _ _ _ hp
  | xent => exact effect_of_outcome (execXent_next h) fun ⟨_, _, _, e⟩ => e ▸ .read _ _
  | gstart => exact effect_of_outcome (execGstart_next h) fun ⟨_, hp, hs, e⟩ => e ▸ .gstart _ hp hs
  | genb => exact effect_of_outcome (execGenb_next h) fun ⟨_, hp, e⟩ => e ▸ .genb _ _ _ _ _ hp
  | sdist i => exact effect_of_outcome (execSdist_next h) fun ⟨_, _, _, e⟩ => e ▸ .read _ _
  | setmask k ext =>
    exact effect_of_outcome (execSetmask_next h) fun ⟨_, hp, e⟩ => e ▸ .mask _ _ s.len s.inp s.out 0 hp
  | setlen hi8 ext => exact effect_of_outcome (execSetlen_next h) fun ⟨_, hp, e⟩ => e ▸ .length _ _ hp
  | seed ext => exact effect_of_outcome (execSeed_next h) fun ⟨_, e⟩ => e ▸ .seed _ _

/-- An invariant that the command port, `FAULT` and the responses do not enter, and that every effect keeps, is kept
by every step. -/
theorem step_keeps {I : State → Prop}
    (quiet : ∀ (s : State) (cmd : List Word) (fault : BitVec 8) (resp : List Response),
      I s → I { s with cmd := cmd, fault := fault, resp := resp })
    (effect : ∀ (i : Instr) (s t : State), I s → Effect s i t → I t) {s t : State} (hs : I s)
    (h : step s = .next t) : I t := by
  rcases step_next h with ⟨i, rest, -, he⟩ | ⟨why, rest, -, hi⟩
  · rcases exec_next he with ⟨-, rfl⟩ | ⟨-, c, rfl⟩ | heff
    · exact quiet s rest _ _ hs
    · exact quiet s rest _ _ hs
    · exact effect i _ t (quiet s rest s.fault s.resp hs) heff
  · rcases illegalCommand_next hi with ⟨-, rfl⟩ | ⟨-, c, rfl⟩
    · exact quiet s rest _ _ hs
    · exact quiet s rest _ _ hs

end Sys2Proof.Machine

/-! # The tree position (R21) -/

namespace Sys2Proof.Machine

/-- The walk at the start of a byte is in range. -/
theorem treeInRange_start {s : State} (hn : s.node = 1) (hb : s.bitcnt = 0) : s.treeInRange := by
  simp [State.treeInRange, hn, hb]

/-- Below depth 8 neither register wraps, and `2*NODE + bit` lies between the doubled bounds. -/
theorem treeInRange_treeStep {s : State} (h : s.treeInRange) (room : s.bitcnt.toNat < 8) (bit : Bool) :
    (s.treeStep bit).treeInRange := by
  obtain ⟨-, hlow, hhigh⟩ := h
  have hpow : 2 ^ (s.bitcnt.toNat + 1) ≤ 2 ^ 8 := Nat.pow_le_pow_right (by omega) room
  have hbit : bit.toNat ≤ 1 := bit.toNat_le
  have hcount : (s.treeStep bit).bitcnt.toNat = s.bitcnt.toNat + 1 := by
    simp only [State.treeStep_bitcnt]
    bv_omega
  have hsmall : 2 * s.node.toNat + bit.toNat < 512 := by omega
  have hnode : (s.treeStep bit).node.toNat = 2 * s.node.toNat + bit.toNat := by
    simp [BitVec.toNat_add, BitVec.toNat_mul, Nat.mod_eq_of_lt hsmall]
  rw [State.treeInRange, hcount, hnode]
  omega

theorem Effect.keeps_treeInRange {i : Instr} {s t : State} (hs : s.treeInRange) (h : Effect s i t) :
    t.treeInRange := by
  cases h with
  | reset | treeReset | startCoder | codeByte => exact treeInRange_start rfl rfl
  | treeStep _ bit _ room => exact treeInRange_treeStep hs room bit
  | _ => exact hs

/-- Settles O36: only the walk's own commands move the position, and each keeps it in range. -/
theorem treePositionInvariant : Obligations.TreePositionInvariant := fun _ _ hs h =>
  step_keeps (I := State.treeInRange) (fun _ _ _ _ hs => hs) (fun _ _ _ hs he => he.keeps_treeInRange hs) hs h

/-! # Who writes `FAULT`, the vocabulary and the model states -/

theorem Effect.fault_kept_or_reset {i : Instr} {s t : State} (h : Effect s i t) :
    t.fault = s.fault ∨ (i = .sreset ∧ t.fault = 0) := by
  cases h with
  | reset => exact .inr ⟨rfl, rfl⟩
  | _ => exact .inl rfl

/-- A refusal leaves `FAULT`; a fault writes it from 0 and answers its code (R33, R136, R137). -/
theorem fault_of_refused_or_raised {s t : State} (h : Refused s t ∨ Raised s t) :
    t.fault = s.fault ∨
    (s.fault = 0 ∧ ∃ c : FaultCode, t.fault = c.code ∧ t.resp = s.resp ++ [⟨true, c.code.zeroExtend 32⟩]) := by
  rcases h with ⟨-, rfl⟩ | ⟨h0, c, rfl⟩
  · exact .inl rfl
  · exact .inr ⟨h0, c, rfl, rfl⟩

theorem step_fault_cases {s t : State} (h : step s = .next t) :
    t.fault = s.fault ∨
    (s.fault = 0 ∧ ∃ c : FaultCode, t.fault = c.code ∧ t.resp = s.resp ++ [⟨true, c.code.zeroExtend 32⟩]) ∨
    (t.fault = 0 ∧ ∃ rest, fetch s.cmd = .command .sreset rest) := by
  rcases step_next h with ⟨i, rest, hf, he⟩ | ⟨why, rest, -, hi⟩
  · rcases or_assoc.2 (exec_next he) with hfault | heff
    · exact (fault_of_refused_or_raised hfault).imp_right .inl
    · rcases heff.fault_kept_or_reset with hkeep | ⟨rfl, hzero⟩
      · exact .inl hkeep
      · exact .inr (.inr ⟨hzero, rest, hf⟩)
  · exact (fault_of_refused_or_raised (illegalCommand_next hi)).imp_right .inl

theorem step_of_fetch_command {s : State} {i : Instr} {rest : List Word} (h : fetch s.cmd = .command i rest) :
    step s = exec i { s with cmd := rest } := by
  simp only [step, h]

/-- Settles O11: the step's three cases, and what the two resets leave. -/
theorem faultKeepsTheFirstCode : Obligations.FaultKeepsTheFirstCode := by
  refine ⟨fun s t h => step_fault_cases h, ?_, fun s => rfl⟩
  rintro s t ⟨rest, hf⟩ h
  rw [step_of_fetch_command hf] at h
  rw [execSreset_next h]
  rfl

/-- Outside `IDLE` no effect but the reset's reaches the vocabulary, its map or the length. -/
theorem Effect.keeps_vocabulary {i : Instr} {s t : State} (h : Effect s i t) (hp : s.phase ≠ .idle)
    (hi : i ≠ .sreset) :
    t.vmask = s.vmask ∧ t.vsize = s.vsize ∧ t.fwd = s.fwd ∧ t.inv = s.inv ∧ t.vmv = s.vmv ∧ t.len = s.len := by
  cases h with
  | reset => exact absurd rfl hi
  | mask _ _ _ _ _ _ idle | map _ _ _ _ _ _ idle | length _ _ idle => exact absurd idle hp
  | _ => exact ⟨rfl, rfl, rfl, rfl, rfl, rfl⟩

/-- Settles O16: every writer of these fields is an effect that asks for `IDLE`. -/
theorem vocabularyIsFixedDuringAPass : Obligations.VocabularyIsFixedDuringAPass := by
  intro i s t hp hi h
  rcases exec_next h with ⟨-, rfl⟩ | ⟨-, c, rfl⟩ | heff
  · exact ⟨rfl, rfl, rfl, rfl, rfl, rfl⟩
  · exact ⟨rfl, rfl, rfl, rfl, rfl, rfl⟩
  · exact heff.keeps_vocabulary hp hi

theorem Effect.pstate_kept_or_writer {i : Instr} {s t : State} (h : Effect s i t) (hi : i ≠ .sreset) :
    t.pstate = s.pstate ∨ (i = .pinit ∧ s.phase = .idle) ∨ (∃ n b, i = .pobs n b) ∨ (∃ b, i = .encb b) ∨
      i = .decb := by
  cases h with
  | reset => exact absurd rfl hi
  | pinit p idle => exact .inr (.inl ⟨rfl, idle⟩)
  | pobs node bit p => exact .inr (.inr (.inl ⟨node, bit, rfl⟩))
  | codeByte =>
    next coder => exact .inr (.inr (.inr coder))
  | _ => exact .inl rfl

theorem Effect.bstate_kept_or_writer {i : Instr} {s t : State} (h : Effect s i t) (hi : i ≠ .sreset) :
    t.bstate = s.bstate ∨ i = .sstart ∨ (∃ b, i = .trainb b) ∨ i = .genb := by
  cases h with
  | reset => exact absurd rfl hi
  | sstart => exact .inr (.inl rfl)
  | trainb b => exact .inr (.inr (.inl ⟨b, rfl⟩))
  | genb => exact .inr (.inr (.inr rfl))
  | _ => exact .inl rfl

/-- Settles O17: a refusal and a fault touch neither state, an effect only if its command is in the list. -/
theorem modelStatesHaveTheirWriters : Obligations.ModelStatesHaveTheirWriters := by
  intro i s t h hi
  rcases exec_next h with ⟨-, rfl⟩ | ⟨-, c, rfl⟩ | heff
  · exact ⟨.inl rfl, .inl rfl⟩
  · exact ⟨.inl rfl, .inl rfl⟩
  · exact ⟨heff.pstate_kept_or_writer hi, heff.bstate_kept_or_writer hi⟩

end Sys2Proof.Machine

/-! # The tables of the vocabulary (R24, R67) -/

namespace Sys2Proof.Machine

/-! ### Reading a table after a write -/

theorem readEntry_eq (t : Vector Entry 256) (i : Nat) : readEntry t i = t[i]?.getD absentEntry := by
  simp [readEntry, Vector.getD]

theorem readEntry_set (t : Vector Entry 256) {i : Nat} (hi : i < 256) (e : Entry) (j : Nat) :
    readEntry (t.setIfInBounds i e) j = if i = j then e else readEntry t j := by
  simp only [readEntry_eq, Vector.getElem?_setIfInBounds]
  split <;> simp_all

/-- An entry outside the table reads as absent, so writing `absentEntry` needs no bound. -/
theorem readEntry_set_absent (t : Vector Entry 256) (i j : Nat) :
    readEntry (t.setIfInBounds i absentEntry) j = if i = j then absentEntry else readEntry t j := by
  simp only [readEntry_eq, Vector.getElem?_setIfInBounds]
  split
  · split <;> rfl
  · rfl

theorem readEntry_replicate_absent (i : Nat) : readEntry (Vector.replicate 256 absentEntry) i = absentEntry := by
  simp only [readEntry_eq, Vector.getElem?_replicate]
  split <;> rfl

/-! ### The present values below a bound -/

/-- The present values below `n`, ascending. -/
def valuesBelow (m : Mask) (n : Nat) : List Nat := (List.range n).filter fun v => m.getLsbD v

theorem presentValues_eq (m : Mask) : presentValues m = valuesBelow m 256 := rfl

theorem length_valuesBelow (m : Mask) (n : Nat) : (valuesBelow m n).length = rank m n :=
  List.countP_eq_length_filter.symm

theorem valuesBelow_succ (m : Mask) (n : Nat) :
    valuesBelow m (n + 1) = if m.getLsbD n then valuesBelow m n ++ [n] else valuesBelow m n := by
  simp only [valuesBelow, List.range_succ, List.filter_append, List.filter_singleton]
  split <;> simp_all

theorem rank_succ (m : Mask) (n : Nat) : rank m (n + 1) = if m.getLsbD n then rank m n + 1 else rank m n := by
  simp only [← length_valuesBelow, valuesBelow_succ]
  split <;> simp

theorem rank_le (m : Mask) (n : Nat) : rank m n ≤ n := by
  simpa [rank] using List.countP_le_length (p := fun u => m.getLsbD u) (l := List.range n)

/-! ### `BuildMap`'s loops -/

/-- What the first loop has established when the values below `n` are done. -/
structure MapLoopDone (m : Mask) (n : Nat) (a : MapLoop) : Prop where
  idx : a.idx = rank m n
  fwd : ∀ v < n, (readEntry a.fwd v).toNat = expectedForward m v
  inv : ∀ i < a.idx, (readEntry a.inv i).toNat = (valuesBelow m n).getD i 256

theorem toNat_ofNat_nine {x : Nat} (h : x ≤ 256) : (BitVec.ofNat 9 x).toNat = x := by
  rw [BitVec.toNat_ofNat]
  omega

/-- `0x100 | idx` (R67). -/
theorem toNat_absent_or {x : Nat} (h : x < 256) : (absentEntry ||| BitVec.ofNat 9 x).toNat = 256 + x := by
  rw [BitVec.toNat_or, toNat_ofNat_nine h.le]
  exact (Nat.two_pow_add_eq_or_of_lt (i := 8) h 1).symm

theorem mapStep_present {m : Mask} {v : Nat} (hv : m.getLsbD v = true) (a : MapLoop) :
    mapStep m a v = ⟨a.idx + 1, a.fwd.setIfInBounds v (BitVec.ofNat 9 a.idx),
      a.inv.setIfInBounds a.idx (BitVec.ofNat 9 v)⟩ := if_pos hv

theorem mapStep_absent {m : Mask} {v : Nat} (hv : m.getLsbD v = false) (a : MapLoop) :
    mapStep m a v = ⟨a.idx, a.fwd.setIfInBounds v (absentEntry ||| BitVec.ofNat 9 a.idx), a.inv⟩ := by
  simp [mapStep, hv]

/-- A pass that writes `FWD[n]` as R24 wants it leaves `FWD` right below `n + 1`. -/
theorem fwd_after_write {m : Mask} {n : Nat} {t : Vector Entry 256} {e : Entry} (hn : n < 256)
    (ht : ∀ v < n, (readEntry t v).toNat = expectedForward m v) (he : e.toNat = expectedForward m n) :
    ∀ v < n + 1, (readEntry (t.setIfInBounds n e) v).toNat = expectedForward m v := by
  intro v hv
  rw [readEntry_set t hn]
  split
  · next h => rw [he, h]
  · next h => exact ht v (by omega)

theorem mapStep_done {m : Mask} {n : Nat} {a : MapLoop} (hn : n < 256) (h : MapLoopDone m n a) :
    MapLoopDone m (n + 1) (mapStep m a n) := by
  have hidx : a.idx ≤ n := h.idx ▸ rank_le m n
  have hlen : (valuesBelow m n).length = a.idx := (length_valuesBelow m n).trans h.idx.symm
  cases hv : m.getLsbD n with
  | true =>
    rw [mapStep_present hv]
    refine ⟨by simp [rank_succ, hv, h.idx], fwd_after_write hn h.fwd ?_, fun i hi => ?_⟩
    · rw [toNat_ofNat_nine (hidx.trans hn.le), h.idx, expectedForward, if_pos hv]
    · rw [readEntry_set _ (by omega), valuesBelow_succ, if_pos hv]
      split
      · next hlast => simp [← hlast, ← hlen, toNat_ofNat_nine hn.le]
      · next hearlier =>
        have hlt : i < a.idx := by simp only at hi; omega
        rw [h.inv i hlt, List.getD_append _ _ _ _ (hlen ▸ hlt)]
  | false =>
    rw [mapStep_absent hv]
    refine ⟨by simp [rank_succ, hv, h.idx], fwd_after_write hn h.fwd ?_, fun i hi => ?_⟩
    · rw [toNat_absent_or (by omega), h.idx]
      simp [expectedForward, hv]
    · rw [h.inv i hi]
      simp [valuesBelow_succ, hv]

/-- Whatever the tables held before, the first loop leaves R24's entries for the mask. -/
theorem mapLoop_done (m : Mask) (fwd inv : Vector Entry 256) : MapLoopDone m 256 (mapLoop m fwd inv) := by
  suffices h : ∀ n ≤ 256, MapLoopDone m n ((List.range n).foldl (mapStep m) ⟨0, fwd, inv⟩) from h 256 le_rfl
  intro n
  induction n with
  | zero => exact fun _ => ⟨rfl, fun v hv => absurd hv (Nat.not_lt_zero v), fun i hi => absurd hi (Nat.not_lt_zero i)⟩
  | succ n ih =>
    intro hn
    rw [List.range_succ, List.foldl_append]
    exact mapStep_done hn (ih (by omega))

theorem readEntry_foldl_absent (l : List Nat) (t : Vector Entry 256) (j : Nat) :
    readEntry (l.foldl (fun t i => t.setIfInBounds i absentEntry) t) j =
      if j ∈ l then absentEntry else readEntry t j := by
  induction l generalizing t with
  | nil => simp
  | cons i l ih =>
    rw [List.foldl_cons, ih, readEntry_set_absent]
    grind

/-- The second loop fills `INV` from the first unused index on. -/
theorem readEntry_fillInv (idx : Nat) (t : Vector Entry 256) {i : Nat} (hi : i < 256) :
    readEntry (fillInv idx t) i = if idx ≤ i then absentEntry else readEntry t i := by
  have hmem : i ∈ List.range' idx (numValues - idx) ↔ idx ≤ i := by
    rw [List.mem_range'_1, numValues]
    omega
  simp only [fillInv, readEntry_foldl_absent, hmem]

/-- `BuildMap` leaves the tables and the size of the mask it is given (R24, R67). -/
theorem buildMap_mapMatches (s : State) : s.buildMap.mapMatches := by
  obtain ⟨hidx, hfwd, hinv⟩ := mapLoop_done s.vmask s.fwd s.inv
  have hle := rank_le s.vmask 256
  refine ⟨?_, fun b => hfwd b.toNat b.isLt, fun i => ?_⟩
  · rw [State.buildMap_vsize, State.buildMap_vmask, presentValues_eq, length_valuesBelow, hidx, toNat_ofNat_nine hle]
  · rw [State.inverse, State.buildMap_inv, readEntry_fillInv _ _ i.isLt, State.buildMap_vmask, expectedInverse,
      presentValues_eq]
    split
    · next hunused =>
      rw [List.getD_eq_default _ _ (by rwa [length_valuesBelow, ← hidx])]
      rfl
    · next hused => exact hinv i.toNat (by omega)

@[simp] theorem mapMatches_answer (s : State) (err : Bool) (data : Word) :
    (s.answer err data).mapMatches ↔ s.mapMatches := Iff.rfl

/-! # The models beside the vocabulary -/

theorem setModel_dist_wellFormed {s : State} (r : ByteState × (Nat → Nat)) :
    (s.setModel r).dist.length = s.vsize.toNat ∧ ∀ q ∈ (s.setModel r).dist, q.toNat ≤ 65536 :=
  ⟨storedDist_length _ _, fun _ hq => mem_storedDist_le hq⟩

/-- Outside the sampler's phases and with neither model valid, only the map is left to say. -/
theorem modelsMatch_without_models {s : State} (hprv : s.prv = false) (hbmv : s.bmv = false)
    (hp : s.phase = .idle) (hmap : s.vmv = true → s.mapMatches) : s.modelsMatch :=
  ⟨hmap, by simp [hprv], by simp [hbmv], by simp [hp], by simp [hp]⟩

theorem Effect.keeps_modelsMatch {i : Instr} {s t : State} (hs : s.modelsMatch) (h : Effect s i t) :
    t.modelsMatch := by
  have ⟨hmap, hprv, hbmv, hsampler, hseeded⟩ := hs
  cases h with
  | reset => exact modelsMatch_without_models rfl rfl rfl nofun
  | mask _ _ _ _ _ _ idle => exact modelsMatch_without_models rfl rfl idle nofun
  | map _ _ _ _ _ _ idle => exact modelsMatch_without_models rfl rfl idle fun _ =>
    (mapMatches_answer _ _ _).2 (buildMap_mapMatches _)
  | pinit p idle mapped nonempty => exact ⟨hmap, fun _ => ⟨mapped, nonempty⟩, hbmv, hsampler, hseeded⟩
  | startCoder _ q _ _ _ _ _ _ coder idle =>
    exact ⟨hmap, hprv, hbmv, by rcases coder with rfl | rfl <;> nofun, by rcases coder with rfl | rfl <;> nofun⟩
  | endPass => exact ⟨hmap, hprv, hbmv, nofun, nofun⟩
  | sstart r idle mapped nonempty =>
    exact ⟨hmap, hprv, fun _ => ⟨mapped, nonempty, setModel_dist_wellFormed r⟩, fun _ => rfl, nofun⟩
  | trainb b r hacc nsym train | genb r rng count out d gen =>
    refine ⟨hmap, hprv, fun hb => ?_, hsampler, hseeded⟩
    obtain ⟨mapped, nonempty, -⟩ := hbmv hb
    exact ⟨mapped, nonempty, setModel_dist_wellFormed r⟩
  | seed => exact ⟨hmap, hprv, hbmv, hsampler, fun _ => rfl⟩
  | gstart _ train seeded => exact ⟨hmap, hprv, hbmv, fun _ => hsampler (.inl train), fun _ => seeded⟩
  | _ => exact hs

/-- Settles O55: the commands that write the mask clear the flags or rebuild the map, and a model is constructed only
beside a valid map. -/
theorem modelsMatchTheVocabulary : Obligations.ModelsMatchTheVocabulary := fun _ _ hs h =>
  step_keeps (I := State.modelsMatch) (fun _ _ _ _ hs => hs) (fun _ _ _ hs he => he.keeps_modelsMatch hs) hs h

end Sys2Proof.Machine

/-! # The reset state and `STATUS` -/

namespace Sys2Proof.Machine

/-- Every entry of both tables reads as absent after reset (R35). -/
theorem reset_forward (b : Byte) : State.reset.forward b = absentEntry := readEntry_replicate_absent _

theorem reset_inverse (i : Nat) : State.reset.inverse i = absentEntry := readEntry_replicate_absent _

/-- Settles O20: each value is read off `State.reset`; the tables are constant. -/
theorem resetValuesAreTheTable : Obligations.ResetValuesAreTheTable :=
  ⟨rfl, rfl, rfl, rfl, rfl, rfl, rfl, rfl, rfl, rfl, rfl, rfl, rfl, rfl, rfl, rfl, reset_forward,
    fun i _ => reset_inverse i, rfl, rfl, rfl, rfl, rfl, rfl, rfl, rfl, rfl⟩

/-- Settles O56: no flag is set and no pass is active, so only `FAULT` and the tree position have something to say. -/
theorem resetStateHasTheInvariants : Obligations.ResetStateHasTheInvariants :=
  ⟨.inl rfl, treeInRange_start rfl rfl, nofun, nofun, nofun, modelsMatch_without_models rfl rfl rfl nofun⟩

theorem status_phase (s : State) : s.status.extractLsb' 0 3 = s.phase.code := BitVec.extractLsb'_append_eq_right

theorem status_fault (s : State) : s.status.extractLsb' 8 8 = s.fault := by
  simp only [State.status, BitVec.extractLsb'_append_eq_of_le, BitVec.extractLsb'_append_eq_right, Nat.reduceLeDiff,
    Nat.reduceSub]

theorem status_bitcnt (s : State) : s.status.extractLsb' 16 4 = s.bitcnt := by
  simp only [State.status, BitVec.extractLsb'_append_eq_of_le, BitVec.extractLsb'_append_eq_right, Nat.reduceLeDiff,
    Nat.reduceSub]

theorem status_reserved (s : State) : s.status.extractLsb' 20 12 = 0 := by
  simp only [State.status, BitVec.extractLsb'_append_eq_of_le, Nat.reduceLeDiff, Nat.reduceSub]
  rfl

theorem status_flags (s : State) :
    s.status.getLsbD 3 = s.vmv ∧ s.status.getLsbD 4 = s.prv ∧ s.status.getLsbD 5 = s.bmv ∧
    s.status.getLsbD 6 = s.plv ∧ s.status.getLsbD 7 = s.seeded := by
  simp only [State.status, BitVec.getLsbD_append]
  simp

/-- Settles O22, field by field. -/
theorem statusAssemblesItsFields : Obligations.StatusAssemblesItsFields := by
  intro s
  obtain ⟨hvmv, hprv, hbmv, hplv, hseeded⟩ := status_flags s
  refine ⟨?_, hvmv, hprv, hbmv, hplv, hseeded, status_fault s, status_bitcnt s, status_reserved s⟩
  rw [status_phase]
  cases s.phase <;> rfl

end Sys2Proof.Machine

/-! # The words of a command at the head of the port (R51, R54, R57) -/

namespace Sys2Proof

/-- Decoding inverts encoding, format by format: the opcode gives bit 31 and the row, the format gives back the operands.
The literals of `encode` must stay apart, so that the laws of the formats see them. -/
theorem fetch_encode_append (i : Instr) (rest : List Word) : fetch (encode i ++ rest) = .command i rest := by
  cases i with
  | nop | sreset | stop | vmclr | vmall | vmbuild | hdrw | hdrr | estart | eflush | dstart | decb | pinit | btrst
  | sstart | xent | gstart | genb =>
    simp [encode, fetch, hasExtension_eq, decode, Decoded.withRest, opcode_formatN, formatN_word, -BitVec.reduceAppend]
  | rdr | vmark | vmfwd | vminv | encb | trainb | sdist =>
    simp [encode, fetch, hasExtension_eq, decode, Decoded.withRest, opcode_formatB, formatB_word, -BitVec.reduceAppend]
  | ebit =>
    simp [encode, fetch, hasExtension_eq, decode, Decoded.withRest, opcode_formatP, formatP_word, -BitVec.reduceAppend]
  | dbit =>
    simp [encode, fetch, hasExtension_eq, decode, Decoded.withRest, opcode_formatQ, formatQ_word, -BitVec.reduceAppend]
  | ppred =>
    simp [encode, fetch, hasExtension_eq, decode, Decoded.withRest, opcode_formatK, formatK_word, -BitVec.reduceAppend]
  | pobs =>
    simp [encode, fetch, hasExtension_eq, decode, Decoded.withRest, opcode_formatO, formatO_word, -BitVec.reduceAppend]
  | btstep =>
    simp [encode, fetch, hasExtension_eq, decode, Decoded.withRest, opcode_formatT, formatT_word, -BitVec.reduceAppend]
  | setmask =>
    simp [encode, fetch, hasExtension_eq, decode, Decoded.withRest, opcode_formatXM, formatXM_word, -BitVec.reduceAppend]
  | setlen =>
    simp [encode, fetch, hasExtension_eq, decode, Decoded.withRest, opcode_formatB, formatXL_word, -BitVec.reduceAppend]
  | seed =>
    simp [encode, fetch, hasExtension_eq, decode, Decoded.withRest, opcode_formatN, formatXS_word, -BitVec.reduceAppend]

/-- `rest` is what a whole command, legal or illegal, leaves of the word stream `ws`. -/
def LeftAfterFetch (ws rest : List Word) : Prop :=
  (∃ i, fetch ws = .command i rest) ∨ ∃ why, fetch ws = .illegal why rest

theorem Decoded.withRest_rest {d : Decoded} {ws rest : List Word}
    (h : (∃ i, d.withRest ws = .command i rest) ∨ ∃ why, d.withRest ws = .illegal why rest) : rest = ws := by
  cases d <;> simp_all [Decoded.withRest]

/-- A whole command, an illegal one too, is one or two words (R51, R56). -/
theorem LeftAfterFetch.words {ws rest : List Word} (h : LeftAfterFetch ws rest) :
    ∃ words, ws = words ++ rest ∧ 1 ≤ words.length ∧ words.length ≤ 2 := by
  unfold LeftAfterFetch at h
  cases ws with
  | nil => simp at h
  | cons w ws =>
    cases hx : hasExtension w with
    | false =>
      rw [Machine.fetch_one_word hx] at h
      exact ⟨[w], by rw [Decoded.withRest_rest h, List.singleton_append], by simp⟩
    | true =>
      cases ws with
      | nil => simp [Machine.fetch_missing_extension hx] at h
      | cons ext ws =>
        rw [Machine.fetch_two_words hx] at h
        exact ⟨[w, ext], by rw [Decoded.withRest_rest h]; rfl, by simp⟩

end Sys2Proof

namespace Sys2Proof.Machine

/-- Settles O6: `step` executes what `fetch` finds, and `fetch` finds a command whose encoding is there. -/
theorem stepRunsTheFetchedCommand : Obligations.StepRunsTheFetchedCommand :=
  ⟨fun _ _ _ h => step_of_fetch_command h,
    fun _ i rest h => step_of_fetch_command (h ▸ fetch_encode_append i rest)⟩

/-! # One response for each command (R39) -/

theorem Effect.answers_once {i : Instr} {s t : State} (h : Effect s i t) : ∃ r, t.resp = s.resp ++ [r] := by
  cases h <;> exact ⟨_, rfl⟩

theorem answers_once_of_refused_or_raised {s t : State} (h : Refused s t ∨ Raised s t) :
    ∃ r, t.resp = s.resp ++ [r] := by
  rcases h with ⟨-, rfl⟩ | ⟨-, c, rfl⟩
  · exact ⟨_, rfl⟩
  · exact ⟨_, rfl⟩

theorem exec_answers_once {i : Instr} {s t : State} (h : exec i s = .next t) : ∃ r, t.resp = s.resp ++ [r] := by
  rcases or_assoc.2 (exec_next h) with hfault | heff
  · exact answers_once_of_refused_or_raised hfault
  · exact heff.answers_once

/-- Settles O10: the refusal, the fault and every effect end in one `State.answer`. -/
theorem everyCommandEndsWithOneResponse : Obligations.EveryCommandEndsWithOneResponse := by
  intro s t h
  rcases step_next h with ⟨i, rest, -, he⟩ | ⟨why, rest, -, hi⟩
  · exact exec_answers_once (s := { s with cmd := rest }) he
  · exact answers_once_of_refused_or_raised (s := { s with cmd := rest }) (illegalCommand_next hi)

/-! # The streams of IN and OUT (R40)

The kinds of effect say nothing of IN and OUT, so here each command is taken by its own outcome. -/

/-- What executing a command may do to the streams: the oldest 37 bytes of IN at most are removed, at most 37 bytes are
appended to OUT, the command port stays. The widest use is the header with its bitmap, 5 + 32 bytes. -/
structure StreamsAdvance (s t : State) : Prop where
  cmd : t.cmd = s.cmd
  inp : ∃ used, s.inp = used ++ t.inp ∧ used.length ≤ 37
  out : ∃ new, t.out = s.out ++ new ∧ new.length ≤ 37

theorem StreamsAdvance.still {s t : State} (hcmd : t.cmd = s.cmd) (hinp : t.inp = s.inp) (hout : t.out = s.out) :
    StreamsAdvance s t :=
  ⟨hcmd, ⟨[], hinp.symm, by simp⟩, [], by simp [hout], by simp⟩

theorem StreamsAdvance.reads {s t : State} {used : List Byte} (hcmd : t.cmd = s.cmd) (hinp : s.inp = used ++ t.inp)
    (hused : used.length ≤ 37) (hout : t.out = s.out) : StreamsAdvance s t :=
  ⟨hcmd, ⟨used, hinp, hused⟩, [], by simp [hout], by simp⟩

theorem StreamsAdvance.writes {s t : State} {new : List Byte} (hcmd : t.cmd = s.cmd) (hinp : t.inp = s.inp)
    (hout : t.out = s.out ++ new) (hnew : new.length ≤ 37) : StreamsAdvance s t :=
  ⟨hcmd, ⟨[], hinp.symm, by simp⟩, new, hout, hnew⟩

theorem streams_of_refused_or_raised {s t : State} (h : Refused s t ∨ Raised s t) : StreamsAdvance s t := by
  rcases h with ⟨-, rfl⟩ | ⟨-, c, rfl⟩
  · exact .still rfl rfl rfl
  · exact .still rfl rfl rfl

/-- Leaves a command's own outcome to show: a refusal and a fault touch no stream. -/
theorem streams_of_outcome {s t : State} {own : Prop} (h : Refused s t ∨ Raised s t ∨ own)
    (f : own → StreamsAdvance s t) : StreamsAdvance s t :=
  (or_assoc.2 h).elim streams_of_refused_or_raised f

/-! ### The commands that use a stream -/

/-- One decision settles at most four bytes (R94). -/
theorem encodeStep_length (iv : Interval) (p : Prob) (bit : Bool) : (encodeStep iv p bit).1.length ≤ 4 :=
  normaliseE_length maxShifts _

theorem streams_of_writeHeader {s t : State} (h : writeHeader s = .next t) : StreamsAdvance s t := by
  obtain ⟨bytes, d, hlen, rfl | ⟨m, rfl⟩⟩ := writeHeader_frame h
  · exact .writes rfl rfl rfl hlen
  · exact .writes rfl rfl rfl hlen

theorem streams_of_readHeader {s t : State} (h : readHeader s = some (.next t)) : StreamsAdvance s t := by
  obtain ⟨used, rest, l, d, hinp, hlen, rfl | ⟨m, rfl⟩⟩ := readHeader_frame h
  · exact .reads rfl hinp hlen rfl
  · exact .reads rfl hinp hlen rfl

theorem streams_of_encodeBit (s : State) (bit : Bool) (p : Prob) (d : Word) :
    StreamsAdvance s ((s.encodeBit bit p).answer false d) :=
  .writes rfl rfl rfl ((encodeStep_length s.encInterval p bit).trans (by decide))

theorem streams_of_encodeWalk (P : Pred) (s : State) (b : Byte) (d : Word) :
    StreamsAdvance s ((s.encodeWalk P (byteBits b)).endByte.answer false d) := by
  obtain ⟨elow, ehigh, out, node, bitcnt, plast, pnode, p, h, hlen⟩ := encodeWalk_frame P (byteBits b) s
  rw [h]
  exact .writes rfl rfl rfl (hlen.trans (by simp [byteBits]))

theorem streams_of_startDecoder {s t : State} (h : startDecoder s = some (.next t)) : StreamsAdvance s t := by
  obtain ⟨coded, rest, hinp, hlen, rfl⟩ := startDecoder_next h
  exact .reads rfl hinp (by omega) rfl

theorem streams_of_decodeBit {s t : State} {p : Prob} {bit : Bool} (h : s.decodeBit p = some (bit, t)) (d : Word) :
    StreamsAdvance s (t.answer false d) := by
  obtain ⟨win, rest, hstep, rfl⟩ := decodeBit_some h
  obtain ⟨-, -, used, hinp, hlen⟩ := decodeStep_some hstep
  exact .reads rfl hinp (hlen.trans_le ((encodeStep_length _ p bit).trans (by decide))) rfl

/-- `DECB` uses both streams: up to 32 bytes of IN, one byte of OUT. -/
theorem streams_of_decodeWalk {P : Pred} {s u : State} (h : State.decodeWalk P 8 s = some u) (b : Byte) (d : Word) :
    StreamsAdvance s ((u.endByte.emit [b]).answer false d) := by
  obtain ⟨dlow, dhigh, dcode, node, bitcnt, plast, pnode, p, used, hu, hinp, hlen⟩ := decodeWalk_frame P 8 h
  rw [hu]
  exact ⟨rfl, ⟨used, hinp, by omega⟩, [b], rfl, by simp⟩

/-! ### Every command -/

theorem exec_streams {i : Instr} {s t : State} (h : exec i s = .next t) : StreamsAdvance s t := by
  cases i with
  | hdrw => exact streams_of_outcome (execHdrw_next h) fun ⟨_, _, hw⟩ => streams_of_writeHeader hw
  | hdrr => exact streams_of_outcome (execHdrr_next h) fun ⟨_, _, hr⟩ => streams_of_readHeader hr
  | ebit bit p => exact streams_of_outcome (execEbit_next h) fun ⟨_, _, _, e⟩ => e ▸ streams_of_encodeBit s bit p 0
  | encb b => exact streams_of_outcome (execEncb_next h) fun ⟨_, _, _, _, e⟩ => e ▸ streams_of_encodeWalk _ s b 0
  | eflush =>
    exact streams_of_outcome (execEflush_next h) fun ⟨_, _, e⟩ => e ▸ .writes rfl rfl rfl (by simp [wordBytes])
  | dstart => exact streams_of_outcome (execDstart_next h) fun ⟨_, _, hd⟩ => streams_of_startDecoder hd
  | dbit p => exact streams_of_outcome (execDbit_next h) fun ⟨_, _, _, _, _, hd, e⟩ => e ▸ streams_of_decodeBit hd _
  | decb => exact streams_of_outcome (execDecb_next h) fun ⟨_, _, _, _, _, hd, e⟩ => e ▸ streams_of_decodeWalk hd _ _
  | genb => exact streams_of_outcome (execGenb_next h) fun ⟨_, _, e⟩ => e ▸ .writes rfl rfl rfl (by simp)
  | nop => exact streams_of_outcome (execNop_next h) fun ⟨_, e⟩ => e ▸ .still rfl rfl rfl
  | sreset => exact execSreset_next h ▸ .still rfl rfl rfl
  | rdr r => exact streams_of_outcome (execRdr_next h) fun ⟨_, _, e⟩ => e ▸ .still rfl rfl rfl
  | stop => exact streams_of_outcome (execStop_next h) fun ⟨_, _, e⟩ => e ▸ .still rfl rfl rfl
  | vmclr => exact streams_of_outcome (execVmclr_next h) fun ⟨_, _, e⟩ => e ▸ .still rfl rfl rfl
  | vmall => exact streams_of_outcome (execVmall_next h) fun ⟨_, _, e⟩ => e ▸ .still rfl rfl rfl
  | vmark b => exact streams_of_outcome (execVmark_next h) fun ⟨_, _, e⟩ => e ▸ .still rfl rfl rfl
  | vmbuild => exact streams_of_outcome (execVmbuild_next h) fun ⟨_, _, e⟩ => e ▸ .still rfl rfl rfl
  | vmfwd b => exact streams_of_outcome (execVmfwd_next h) fun ⟨_, _, e⟩ => e ▸ .still rfl rfl rfl
  | vminv idx => exact streams_of_outcome (execVminv_next h) fun ⟨_, _, e⟩ => e ▸ .still rfl rfl rfl
  | estart => exact streams_of_outcome (execEstart_next h) fun ⟨_, _, e⟩ => e ▸ .still rfl rfl rfl
  | pinit => exact streams_of_outcome (execPinit_next h) fun ⟨_, _, _, _, e⟩ => e ▸ .still rfl rfl rfl
  | ppred node => exact streams_of_outcome (execPpred_next h) fun ⟨_, _, _, _, e⟩ => e ▸ .still rfl rfl rfl
  | pobs node bit => exact streams_of_outcome (execPobs_next h) fun ⟨_, _, _, _, _, e⟩ => e ▸ .still rfl rfl rfl
  | btrst => exact streams_of_outcome (execBtrst_next h) fun ⟨_, _, e⟩ => e ▸ .still rfl rfl rfl
  | btstep bit => exact streams_of_outcome (execBtstep_next h) fun ⟨_, _, _, e⟩ => e ▸ .still rfl rfl rfl
  | sstart => exact streams_of_outcome (execSstart_next h) fun ⟨_, _, _, _, e⟩ => e ▸ .still rfl rfl rfl
  | trainb b => exact streams_of_outcome (execTrainb_next h) fun ⟨_, _, _, _, e⟩ => e ▸ .still rfl rfl rfl
  | xent => exact streams_of_outcome (execXent_next h) fun ⟨_, _, _, e⟩ => e ▸ .still rfl rfl rfl
  | gstart => exact streams_of_outcome (execGstart_next h) fun ⟨_, _, _, e⟩ => e ▸ .still rfl rfl rfl
  | sdist idx => exact streams_of_outcome (execSdist_next h) fun ⟨_, _, _, e⟩ => e ▸ .still rfl rfl rfl
  | setmask k ext => exact streams_of_outcome (execSetmask_next h) fun ⟨_, _, e⟩ => e ▸ .still rfl rfl rfl
  | setlen hi8 ext => exact streams_of_outcome (execSetlen_next h) fun ⟨_, _, e⟩ => e ▸ .still rfl rfl rfl
  | seed ext => exact streams_of_outcome (execSeed_next h) fun ⟨_, e⟩ => e ▸ .still rfl rfl rfl

/-- A step takes the words of one whole command off the port and moves the streams as executing it does. -/
theorem step_streams {s t : State} (h : step s = .next t) :
    ∃ rest, LeftAfterFetch s.cmd rest ∧ StreamsAdvance { s with cmd := rest } t := by
  rcases step_next h with ⟨i, rest, hf, he⟩ | ⟨why, rest, hf, hi⟩
  · exact ⟨rest, .inl ⟨i, hf⟩, exec_streams he⟩
  · exact ⟨rest, .inr ⟨why, hf⟩, streams_of_refused_or_raised (illegalCommand_next hi)⟩

/-- Settles O15: the port by the words `fetch` took, IN and OUT by the command's own outcome. -/
theorem streamsMoveOneWay : Obligations.StreamsMoveOneWay := by
  intro s t h
  obtain ⟨rest, hleft, hcmd, hinp, hout⟩ := step_streams h
  exact ⟨hinp, hout, hcmd ▸ hleft.words⟩

end Sys2Proof.Machine

/-! # Decode of encode (R52, R57) -/

namespace Sys2Proof

/-- Settles O1: the words `encode` gives are fetched back, format by format. -/
theorem everyCommandDecodesFromItsWords : Obligations.EveryCommandDecodesFromItsWords := fetch_encode_append

end Sys2Proof

/-! # The decoder and the table of masks (R52, R55, R57) -/

namespace Sys2Proof

/-- How many bits at the bottom of the first word the operand fields take; above them, up to bit 23, are the reserved
bits (R52). -/
def Instr.operandBits : Instr → Nat
  | .nop | .sreset | .stop | .vmclr | .vmall | .vmbuild | .hdrw | .hdrr | .estart | .eflush | .dstart | .decb
  | .pinit | .btrst | .sstart | .xent | .gstart | .genb | .seed _ => 0
  | .btstep _ => 1
  | .setmask _ _ => 3
  | .rdr _ | .vmark _ | .vmfwd _ | .vminv _ | .encb _ | .trainb _ | .sdist _ | .setlen _ _ => 8
  | .ppred _ => 9
  | .pobs _ _ => 10
  | .dbit _ => 16
  | .ebit _ _ => 17

/-- The row of a command in the table: its opcode over zeros, every bit of the first word masked but the operands, and the
number of words that bit 31 says (R51, R55). -/
def Instr.row (i : Instr) : OpRow where
  mnemonic := i.mnemonic
  pattern := Laws.EncodedLength.opcode i ++ 0#24
  mask := BitVec.allOnes 32 <<< i.operandBits
  words := if (Laws.EncodedLength.opcode i).getLsbD 7 then 2 else 1

/-- `w` has the command's opcode and no reserved bit set. -/
def Instr.Fits (i : Instr) (w : Word) : Prop :=
  opcodeOf w = Laws.EncodedLength.opcode i ∧ w.extractLsb' i.operandBits (24 - i.operandBits) = 0

theorem getLsbD_opcode_append (op : Byte) (k : Nat) :
    (op ++ 0#24 : Word).getLsbD k = (decide (24 ≤ k) && op.getLsbD (k - 24)) := by
  rw [BitVec.getLsbD_append]
  grind

theorem getLsbD_and_allOnes_shiftLeft (w : Word) (lo k : Nat) :
    (w &&& BitVec.allOnes 32 <<< lo).getLsbD k = (decide (lo ≤ k) && w.getLsbD k) := by
  simp only [BitVec.getLsbD_and, BitVec.getLsbD_shiftLeft, BitVec.getLsbD_allOnes]
  grind

/-- What the mask of a row tests, bit by bit: the opcode, and the reserved bits between it and the operands. -/
theorem and_mask_eq_iff {lo : Nat} (hlo : lo ≤ 24) (w : Word) (op : Byte) :
    w &&& BitVec.allOnes 32 <<< lo = op ++ 0#24 ↔ opcodeOf w = op ∧ w.extractLsb' lo (24 - lo) = 0 := by
  constructor
  · intro h
    have bit (k : Nat) : (decide (lo ≤ k) && w.getLsbD k) = (decide (24 ≤ k) && op.getLsbD (k - 24)) := by
      rw [← getLsbD_and_allOnes_shiftLeft, h, getLsbD_opcode_append]
    refine ⟨BitVec.eq_of_getLsbD_eq fun k hk => ?_, BitVec.eq_of_getLsbD_eq fun k hk => ?_⟩
    · simpa [opcodeOf, extract_bit _ _ _ _ hk, show lo ≤ 24 + k by omega] using bit (24 + k)
    · simpa [extract_bit _ _ _ _ hk, show ¬24 ≤ lo + k by omega] using bit (lo + k)
  · rintro ⟨rfl, hz⟩
    refine BitVec.eq_of_getLsbD_eq fun k hk => ?_
    rw [getLsbD_and_allOnes_shiftLeft, getLsbD_opcode_append]
    by_cases hop : 24 ≤ k
    · rw [opcodeOf, extract_bit _ _ _ _ (by omega)]
      simp [hop, show lo ≤ k by omega]
    · by_cases hk : lo ≤ k
      · have hbit := extract_bit w lo (24 - lo) (k - lo) (by omega)
        rw [hz, Nat.add_sub_cancel' hk] at hbit
        simp [hop, ← hbit]
      · simp [hop, hk]

/-! ### The two descriptions of a row -/

/-- The 33 commands, each once, with its operands 0. -/
def oneOfEach : List Instr :=
  [.nop, .sreset, .rdr 0, .stop, .vmclr, .vmall, .vmark 0, .vmbuild, .vmfwd 0, .vminv 0, .hdrw, .hdrr, .estart,
   .ebit false 0, .encb 0, .eflush, .dstart, .dbit 0, .decb, .pinit, .ppred 0, .pobs 0 false, .btrst, .btstep false,
   .sstart, .trainb 0, .xent, .gstart, .genb, .sdist 0, .setmask 0 0, .setlen 0 0, .seed 0]

/-- The table written out in the model is the table of the commands' rows. -/
theorem opcodeMap_eq : opcodeMap = oneOfEach.map Instr.row := by decide

theorem exists_mem_oneOfEach (i : Instr) : ∃ j ∈ oneOfEach, j.row = i.row := by
  cases i with
  | nop | sreset | stop | vmclr | vmall | vmbuild | hdrw | hdrr | estart | eflush | dstart | decb | pinit | btrst
  | sstart | xent | gstart | genb => exact ⟨_, by decide, rfl⟩
  | rdr => exact ⟨.rdr 0, by decide, rfl⟩
  | vmark => exact ⟨.vmark 0, by decide, rfl⟩
  | vmfwd => exact ⟨.vmfwd 0, by decide, rfl⟩
  | vminv => exact ⟨.vminv 0, by decide, rfl⟩
  | ebit => exact ⟨.ebit false 0, by decide, rfl⟩
  | encb => exact ⟨.encb 0, by decide, rfl⟩
  | dbit => exact ⟨.dbit 0, by decide, rfl⟩
  | ppred => exact ⟨.ppred 0, by decide, rfl⟩
  | pobs => exact ⟨.pobs 0 false, by decide, rfl⟩
  | btstep => exact ⟨.btstep false, by decide, rfl⟩
  | trainb => exact ⟨.trainb 0, by decide, rfl⟩
  | sdist => exact ⟨.sdist 0, by decide, rfl⟩
  | setmask => exact ⟨.setmask 0 0, by decide, rfl⟩
  | setlen => exact ⟨.setlen 0 0, by decide, rfl⟩
  | seed => exact ⟨.seed 0, by decide, rfl⟩

theorem mem_opcodeMap_iff {row : OpRow} : row ∈ opcodeMap ↔ ∃ i : Instr, i.row = row := by
  rw [opcodeMap_eq, List.mem_map]
  constructor
  · rintro ⟨i, -, h⟩
    exact ⟨i, h⟩
  · rintro ⟨i, rfl⟩
    exact exists_mem_oneOfEach i

theorem Instr.operandBits_le (i : Instr) : i.operandBits ≤ 24 := by
  cases i <;> simp [Instr.operandBits]

theorem Instr.row_selects_iff (i : Instr) (w : Word) : i.row.selects w = true ↔ i.Fits w := by
  rw [OpRow.selects, beq_iff_eq]
  exact and_mask_eq_iff i.operandBits_le w _

/-- The opcode a row is for: bits 31:24 of its pattern. -/
def OpRow.opcode (row : OpRow) : Byte := opcodeOf row.pattern

theorem Instr.row_opcode (i : Instr) : i.row.opcode = Laws.EncodedLength.opcode i := opcode_formatN _

theorem opcodes_nodup : (opcodeMap.map OpRow.opcode).Nodup := by decide

theorem OpRow.eq_of_opcode_eq {r₁ r₂ : OpRow} (h₁ : r₁ ∈ opcodeMap) (h₂ : r₂ ∈ opcodeMap)
    (h : r₁.opcode = r₂.opcode) : r₁ = r₂ :=
  List.inj_on_of_nodup_map opcodes_nodup h₁ h₂ h

theorem opcode_of_selects {row : OpRow} {w : Word} (hrow : row ∈ opcodeMap) (h : row.selects w = true) :
    row.opcode = opcodeOf w := by
  obtain ⟨i, rfl⟩ := mem_opcodeMap_iff.1 hrow
  obtain ⟨hop, -⟩ := (i.row_selects_iff w).1 h
  rw [i.row_opcode, hop]

/-- "At most one row matches" (R57): the opcodes of the rows differ. -/
theorem row_unique {w : Word} {r₁ r₂ : OpRow} (h₁ : r₁ ∈ opcodeMap) (h₂ : r₂ ∈ opcodeMap) (hw₁ : r₁.selects w = true)
    (hw₂ : r₂.selects w = true) : r₁ = r₂ :=
  OpRow.eq_of_opcode_eq h₁ h₂ ((opcode_of_selects h₁ hw₁).trans (opcode_of_selects h₂ hw₂).symm)

theorem Instr.row_eq_of_opcode_eq {i j : Instr} (h : Laws.EncodedLength.opcode i = Laws.EncodedLength.opcode j) :
    i.row = j.row :=
  OpRow.eq_of_opcode_eq (mem_opcodeMap_iff.2 ⟨i, rfl⟩) (mem_opcodeMap_iff.2 ⟨j, rfl⟩)
    (by rw [i.row_opcode, j.row_opcode, h])

/-! ### What `decode` answers -/

theorem ifReservedZero_eq_command {w : Word} {lo : Nat} {i j : Instr} :
    ifReservedZero w lo j = .command i ↔ w.extractLsb' lo (24 - lo) = 0 ∧ j = i := by
  unfold ifReservedZero
  split <;> simp_all

/-- An arm of `decode`, whose format has unfolded to its check of the reserved bits. -/
theorem exists_of_arm {w : Word} {lo : Nat} {i : Instr}
    (hop : (opcodeOf w).toNat = (Laws.EncodedLength.opcode i).toNat) (hlo : i.operandBits = lo) :
    ∃ j : Instr, opcodeOf w = Laws.EncodedLength.opcode j ∧
      ifReservedZero w lo i = ifReservedZero w j.operandBits j :=
  ⟨i, BitVec.eq_of_toNat_eq hop, hlo ▸ rfl⟩

/-- The opcode selects one command of one row, whose reserved bits are then looked at, or no command has it. -/
theorem decode_cases (w ext : Word) :
    (∃ i : Instr, opcodeOf w = Laws.EncodedLength.opcode i ∧ decode w ext = ifReservedZero w i.operandBits i) ∨
    ((∀ i : Instr, opcodeOf w ≠ Laws.EncodedLength.opcode i) ∧ decode w ext = .illegal .unassignedOpcode) := by
  unfold decode
  split
  case h_34 =>
    refine .inr ⟨fun i hi => ?_, rfl⟩
    have hn := congrArg BitVec.toNat hi
    cases i <;> contradiction
  all_goals exact .inl (exists_of_arm ‹_› rfl)

theorem fits_of_decode {w ext : Word} {i : Instr} (h : decode w ext = .command i) : i.Fits w := by
  rcases decode_cases w ext with ⟨j, hop, hd⟩ | ⟨-, hd⟩
  · obtain ⟨hz, rfl⟩ := ifReservedZero_eq_command.1 (hd ▸ h)
    exact ⟨hop, hz⟩
  · rw [hd] at h
    cases h

/-- The command decoded need not be `j`: its operands are those of `w`. -/
theorem decode_of_fits {w : Word} {j : Instr} (h : j.Fits w) (ext : Word) :
    ∃ i, decode w ext = .command i ∧ i.row = j.row := by
  have ⟨hop, _⟩ := h
  rcases decode_cases w ext with ⟨i, hi, hd⟩ | ⟨hnone, -⟩
  · have hrow : i.row = j.row := Instr.row_eq_of_opcode_eq (hi.symm.trans hop)
    obtain ⟨-, hz⟩ : i.Fits w := by rwa [← Instr.row_selects_iff, hrow, Instr.row_selects_iff]
    exact ⟨i, hd.trans (ifReservedZero_of_zero hz i), hrow⟩
  · exact absurd hop (hnone j)

/-- A command decoded from `w` has a row that selects `w`, with the number of words of bit 31. -/
theorem row_of_decode {w ext : Word} {i : Instr} (h : decode w ext = .command i) :
    i.row ∈ opcodeMap ∧ i.row.selects w = true ∧ i.row.words = if hasExtension w then 2 else 1 := by
  have ⟨hop, hz⟩ := fits_of_decode h
  refine ⟨mem_opcodeMap_iff.2 ⟨i, rfl⟩, (i.row_selects_iff w).2 ⟨hop, hz⟩, ?_⟩
  rw [hasExtension_eq, hop]
  rfl

theorem decode_of_selects {w : Word} {row : OpRow} (hrow : row ∈ opcodeMap) (h : row.selects w = true) (ext : Word) :
    ∃ i, decode w ext = .command i ∧ row.mnemonic = i.mnemonic := by
  obtain ⟨j, rfl⟩ := mem_opcodeMap_iff.1 hrow
  obtain ⟨i, hd, hij⟩ := decode_of_fits ((j.row_selects_iff w).1 h) ext
  exact ⟨i, hd, congrArg OpRow.mnemonic hij.symm⟩

/-- Settles O3: a row selects exactly the words that fit its commands, `decode` accepts exactly those, and the rows'
opcodes differ. -/
theorem firstWordSelectsItsRow : Obligations.FirstWordSelectsItsRow := by
  refine ⟨fun w ext i h => ?_, fun w ext row hrow h => decode_of_selects hrow h ext, fun w r₁ r₂ => row_unique⟩
  obtain ⟨hmem, hsel, hwords⟩ := row_of_decode h
  exact ⟨i.row, hmem, hsel, rfl, hwords⟩

end Sys2Proof

/-! # Encode of decode (R52, R56) -/

namespace Sys2Proof

/-! ### An accepted word, format by format

The converses of the laws `formatN_word` to `formatXS_word`: with its reserved bits 0, a word is its opcode, zeros and its
operand fields. -/

/-- Two neighbouring slices of a word are one slice. -/
theorem slice_append (w : Word) (start len len' : Nat) :
    w.extractLsb' (start + len) len' ++ w.extractLsb' start len = w.extractLsb' start (len' + len) :=
  BitVec.extractLsb'_append_extractLsb'_eq_extractLsb' rfl

theorem ofBool_getLsbD_eq (w : Word) (k : Nat) : BitVec.ofBool (w.getLsbD k) = w.extractLsb' k 1 := by
  simp [BitVec.eq_of_getLsbD_eq_iff]

theorem word_of_formatN {w : Word} {op : Byte} (hop : opcodeOf w = op) (hz : w.extractLsb' 0 24 = 0#24) :
    op ++ 0#24 = w := by
  rw [← hop, ← hz, opcodeOf, slice_append w 0 24]
  exact BitVec.extractLsb'_eq_self

theorem word_of_formatB {w : Word} {op : Byte} (hop : opcodeOf w = op) (hz : w.extractLsb' 8 16 = 0#16) :
    op ++ 0#16 ++ w.extractLsb' 0 8 = w := by
  rw [← hop, ← hz, opcodeOf, slice_append w 8 16, slice_append w 0 8]
  exact BitVec.extractLsb'_eq_self

theorem word_of_formatP {w : Word} {op : Byte} (hop : opcodeOf w = op) (hz : w.extractLsb' 17 7 = 0#7) :
    op ++ 0#7 ++ BitVec.ofBool (w.getLsbD 16) ++ w.extractLsb' 0 16 = w := by
  rw [← hop, ← hz, opcodeOf, ofBool_getLsbD_eq, slice_append w 17 7, slice_append w 16 1, slice_append w 0 16]
  exact BitVec.extractLsb'_eq_self

theorem word_of_formatQ {w : Word} {op : Byte} (hop : opcodeOf w = op) (hz : w.extractLsb' 16 8 = 0#8) :
    op ++ 0#8 ++ w.extractLsb' 0 16 = w := by
  rw [← hop, ← hz, opcodeOf, slice_append w 16 8, slice_append w 0 16]
  exact BitVec.extractLsb'_eq_self

theorem word_of_formatK {w : Word} {op : Byte} (hop : opcodeOf w = op) (hz : w.extractLsb' 9 15 = 0#15) :
    op ++ 0#15 ++ w.extractLsb' 0 9 = w := by
  rw [← hop, ← hz, opcodeOf, slice_append w 9 15, slice_append w 0 9]
  exact BitVec.extractLsb'_eq_self

theorem word_of_formatO {w : Word} {op : Byte} (hop : opcodeOf w = op) (hz : w.extractLsb' 10 14 = 0#14) :
    op ++ 0#14 ++ BitVec.ofBool (w.getLsbD 9) ++ w.extractLsb' 0 9 = w := by
  rw [← hop, ← hz, opcodeOf, ofBool_getLsbD_eq, slice_append w 10 14, slice_append w 9 1, slice_append w 0 9]
  exact BitVec.extractLsb'_eq_self

theorem word_of_formatT {w : Word} {op : Byte} (hop : opcodeOf w = op) (hz : w.extractLsb' 1 23 = 0#23) :
    op ++ 0#23 ++ BitVec.ofBool (w.getLsbD 0) = w := by
  rw [← hop, ← hz, opcodeOf, ofBool_getLsbD_eq, slice_append w 1 23, slice_append w 0 1]
  exact BitVec.extractLsb'_eq_self

theorem word_of_formatXM {w : Word} {op : Byte} (hop : opcodeOf w = op) (hz : w.extractLsb' 3 21 = 0#21) :
    op ++ 0#21 ++ w.extractLsb' 0 3 = w := by
  rw [← hop, ← hz, opcodeOf, slice_append w 3 21, slice_append w 0 3]
  exact BitVec.extractLsb'_eq_self

/-- With bit 7 of the opcode clear, the first word is all of the command (R51). -/
theorem one_word {v w ext : Word} {op : Byte} (hop : opcodeOf w = op) (hbit : op.getLsbD 7 = false) (hv : v = w) :
    [v] = if hasExtension w then [w, ext] else [w] := by
  rw [hasExtension_eq, hop, hbit, hv]
  rfl

/-- With bit 7 of the opcode set, an extension word follows (R51). -/
theorem two_words {v w ext : Word} {op : Byte} (hop : opcodeOf w = op) (hbit : op.getLsbD 7 = true) (hv : v = w) :
    [v, ext] = if hasExtension w then [w, ext] else [w] := by
  rw [hasExtension_eq, hop, hbit, hv]
  rfl

/-- No bit of an accepted word is dropped: its operands are its fields, and every other bit is the opcode's or 0. -/
theorem encode_of_decode {w ext : Word} {i : Instr} (h : decode w ext = .command i) :
    encode i = if hasExtension w then [w, ext] else [w] := by
  obtain ⟨hop, hz⟩ := fits_of_decode h
  cases i with
  | nop | sreset | stop | vmclr | vmall | vmbuild | hdrw | hdrr | estart | eflush | dstart | decb | pinit | btrst
  | sstart | xent | gstart | genb =>
    exact one_word hop (by simp [Laws.EncodedLength.opcode]) (word_of_formatN hop hz)
  | rdr x | vmark x | vmfwd x | vminv x | encb x | trainb x | sdist x =>
    obtain ⟨hz, rfl⟩ : w.extractLsb' 8 16 = 0 ∧ w.extractLsb' 0 8 = x := by
      simpa [decode, hop, Laws.EncodedLength.opcode, formatB, ifReservedZero_eq_command] using h
    exact one_word hop (by simp [Laws.EncodedLength.opcode]) (word_of_formatB hop hz)
  | ebit bit p =>
    obtain ⟨hz, rfl, rfl⟩ : w.extractLsb' 17 7 = 0 ∧ w.getLsbD 16 = bit ∧ w.extractLsb' 0 16 = p := by
      simpa [decode, hop, Laws.EncodedLength.opcode, formatP, ifReservedZero_eq_command] using h
    exact one_word hop (by simp [Laws.EncodedLength.opcode]) (word_of_formatP hop hz)
  | dbit p =>
    obtain ⟨hz, rfl⟩ : w.extractLsb' 16 8 = 0 ∧ w.extractLsb' 0 16 = p := by
      simpa [decode, hop, Laws.EncodedLength.opcode, formatQ, ifReservedZero_eq_command] using h
    exact one_word hop (by simp [Laws.EncodedLength.opcode]) (word_of_formatQ hop hz)
  | ppred node =>
    obtain ⟨hz, rfl⟩ : w.extractLsb' 9 15 = 0 ∧ w.extractLsb' 0 9 = node := by
      simpa [decode, hop, Laws.EncodedLength.opcode, formatK, ifReservedZero_eq_command] using h
    exact one_word hop (by simp [Laws.EncodedLength.opcode]) (word_of_formatK hop hz)
  | pobs node bit =>
    obtain ⟨hz, rfl, rfl⟩ : w.extractLsb' 10 14 = 0 ∧ w.extractLsb' 0 9 = node ∧ w.getLsbD 9 = bit := by
      simpa [decode, hop, Laws.EncodedLength.opcode, formatO, ifReservedZero_eq_command] using h
    exact one_word hop (by simp [Laws.EncodedLength.opcode]) (word_of_formatO hop hz)
  | btstep bit =>
    obtain ⟨hz, rfl⟩ : w.extractLsb' 1 23 = 0 ∧ w.getLsbD 0 = bit := by
      simpa [decode, hop, Laws.EncodedLength.opcode, formatT, ifReservedZero_eq_command] using h
    exact one_word hop (by simp [Laws.EncodedLength.opcode]) (word_of_formatT hop hz)
  | setmask k ext' =>
    obtain ⟨hz, rfl, rfl⟩ : w.extractLsb' 3 21 = 0 ∧ w.extractLsb' 0 3 = k ∧ ext = ext' := by
      simpa [decode, hop, Laws.EncodedLength.opcode, formatXM, ifReservedZero_eq_command] using h
    exact two_words hop (by simp [Laws.EncodedLength.opcode]) (word_of_formatXM hop hz)
  | setlen hi8 ext' =>
    obtain ⟨hz, rfl, rfl⟩ : w.extractLsb' 8 16 = 0 ∧ w.extractLsb' 0 8 = hi8 ∧ ext = ext' := by
      simpa [decode, hop, Laws.EncodedLength.opcode, formatXL, ifReservedZero_eq_command] using h
    exact two_words hop (by simp [Laws.EncodedLength.opcode]) (word_of_formatB hop hz)
  | seed ext' =>
    obtain ⟨hz, rfl⟩ : w.extractLsb' 0 24 = 0 ∧ ext = ext' := by
      simpa [decode, hop, Laws.EncodedLength.opcode, formatXS, ifReservedZero_eq_command] using h
    exact two_words hop (by simp [Laws.EncodedLength.opcode]) (word_of_formatN hop hz)

/-- Settles O2: the encoding of the decoded command gives back the word, and the extension word where bit 31 asks for one. -/
theorem decodedWordsAreTheEncoding : Obligations.DecodedWordsAreTheEncoding := fun _ _ _ h => encode_of_decode h

end Sys2Proof

/-! # Words that select no command (R56) -/

namespace Sys2Proof

theorem illegal_of_unselected {w : Word} (h : ∀ row ∈ opcodeMap, row.selects w = false) (ext : Word) :
    ∃ why, decode w ext = .illegal why := by
  cases hd : decode w ext with
  | illegal why => exact ⟨why, rfl⟩
  | command i =>
    obtain ⟨hmem, hsel, -⟩ := row_of_decode hd
    exact absurd hsel (by simp [h _ hmem])

end Sys2Proof

namespace Sys2Proof.Machine

theorem step_of_fetch_illegal {s : State} {why : IllegalReason} {rest : List Word} (h0 : s.fault = 0)
    (h : fetch s.cmd = .illegal why rest) : step s = .next (({ s with cmd := rest } : State).faulted .illegal) := by
  simp only [step, h]
  exact unlessFaulted_of_zero (s := { s with cmd := rest }) h0 _

/-- Settles O4: the word decodes to no command, since a decoded command's row would select it; `fetch` takes one word or
two by bit 31 before that is known. -/
theorem illegalFirstWordFaults : Obligations.IllegalFirstWordFaults := by
  intro s w h0 hnone
  refine ⟨fun hx rest hcmd => ?_, fun hx ext rest hcmd => ?_⟩
  · obtain ⟨why, hd⟩ := illegal_of_unselected hnone 0
    exact step_of_fetch_illegal h0 (by rw [hcmd, fetch_one_word hx, hd]; rfl)
  · obtain ⟨why, hd⟩ := illegal_of_unselected hnone ext
    exact step_of_fetch_illegal h0 (by rw [hcmd, fetch_two_words hx, hd]; rfl)

end Sys2Proof.Machine

/-! # Ill-formed commands (R53, R135) -/

namespace Sys2Proof.Machine

/-- The outcome is `F_SEQ` or `F_OPERAND`: what the checks ahead of an operand's range and the range check itself raise. -/
def FaultsSeqOrOperand (s : State) (r : Result) : Prop :=
  r = .next (s.faulted .seq) ∨ r = .next (s.faulted .operand)

theorem faultsSeqOrOperand_require_seq {c : Prop} [Decidable c] {s : State} {k : Result}
    (h : c → FaultsSeqOrOperand s k) : FaultsSeqOrOperand s (require c .seq s k) := by
  by_cases hc : c
  · rw [require_of hc]
    exact h hc
  · rw [require_of_not hc]
    exact .inl rfl

/-- A failed range check decides the outcome, whatever the command would go on to do. -/
theorem faultsSeqOrOperand_require_operand {c : Prop} [Decidable c] (hc : ¬c) (s : State) (k : Result) :
    FaultsSeqOrOperand s (require c .operand s k) := by
  rw [require_of_not hc]
  exact .inr rfl

/-- Settles O12: each command's range check fails after at most checks that raise `F_SEQ`. `POBS` compares its node with the
latched one, which is in range because the latch is fresh. -/
theorem illFormedCommandsOnlyFault : Obligations.IllFormedCommandsOnlyFault := by
  intro i s hi h0 hlatch
  change FaultsSeqOrOperand s (exec i s)
  cases i with
  | rdr r =>
    have hnone : s.register r = none :=
      Option.isSome_eq_false_iff.1 ((register_isSome s r).trans hi) |> Option.isNone_iff_eq_none.1
    simp only [exec, execRdr, hnone, unlessFaulted_of_zero h0]
    exact .inr rfl
  | ebit bit p =>
    simp only [exec, execEbit, unlessFaulted_of_zero h0]
    exact faultsSeqOrOperand_require_seq fun _ => faultsSeqOrOperand_require_operand (of_decide_eq_false hi) _ _
  | dbit p =>
    simp only [exec, execDbit, unlessFaulted_of_zero h0]
    exact faultsSeqOrOperand_require_seq fun _ => faultsSeqOrOperand_require_operand (of_decide_eq_false hi) _ _
  | ppred node =>
    simp only [exec, execPpred, execPpredWith, unlessFaulted_of_zero h0]
    exact faultsSeqOrOperand_require_seq fun _ => faultsSeqOrOperand_require_seq fun _ =>
      faultsSeqOrOperand_require_operand (of_decide_eq_false hi) _ _
  | pobs node bit =>
    simp only [exec, execPobs, execPobsWith, unlessFaulted_of_zero h0]
    refine faultsSeqOrOperand_require_seq fun _ => faultsSeqOrOperand_require_seq fun _ =>
      faultsSeqOrOperand_require_seq fun hplv => faultsSeqOrOperand_require_operand (fun hnode => ?_) _ _
    obtain ⟨-, hrange, -⟩ := hlatch hplv
    exact of_decide_eq_false hi (hnode ▸ hrange)
  | _ => cases hi

end Sys2Proof.Machine

/-! # Words of the spec's vectors (95_test_vectors.md V0) -/

namespace Sys2Proof

/-- Settles O5: `decode` is evaluated on the fourteen closed words. -/
theorem writtenOutWordsDecode : Obligations.WrittenOutWordsDecode := by
  unfold Obligations.WrittenOutWordsDecode
  decide

end Sys2Proof

/-! # The vocabulary commands (41_vocabmap.md) -/

namespace Sys2Proof

/-! ### Words with an operand below the opcode -/

/-- The encoder appends an operand to the bits above it; the spec's table writes `match | operand` (R52, R55). -/
theorem append_eq_or {n k : Nat} (high : BitVec n) (x : BitVec k) :
    high ++ x = (high ++ 0#k) ||| x.zeroExtend (n + k) := by
  refine BitVec.eq_of_getLsbD_eq fun i hi => ?_
  rw [BitVec.getLsbD_or, BitVec.getLsbD_append, BitVec.getLsbD_append, BitVec.getLsbD_setWidth]
  by_cases hlow : i < k
  · simp [hlow, hi]
  · simp [hlow, x.getLsbD_of_ge i (not_lt.1 hlow)]

end Sys2Proof

namespace Sys2Proof.Machine

/-! ### Commands of `IDLE`, and reading an entry -/

theorem idleCommand_of_idle {s : State} (h0 : s.fault = 0) (hp : s.phase = .idle) (k : Result) :
    unlessFaulted s (require (s.phase = .idle) .seq s k) = k := by
  rw [unlessFaulted_of_zero h0, require_of hp]

theorem idleCommand_of_not_idle {s : State} (h0 : s.fault = 0) (hp : s.phase ≠ .idle) (k : Result) :
    unlessFaulted s (require (s.phase = .idle) .seq s k) = .next (s.faulted .seq) := by
  rw [unlessFaulted_of_zero h0, require_of_not hp, raise_eq]

theorem mapCommand_of_map {s : State} (h0 : s.fault = 0) (hv : s.vmv = true) (k : Result) :
    unlessFaulted s (require (s.vmv = true) .seq s k) = k := by
  rw [unlessFaulted_of_zero h0, require_of hv]

theorem mapCommand_of_no_map {s : State} (h0 : s.fault = 0) (hv : s.vmv = false) (k : Result) :
    unlessFaulted s (require (s.vmv = true) .seq s k) = .next (s.faulted .seq) := by
  rw [unlessFaulted_of_zero h0, require_of_not (by simp [hv]), raise_eq]

theorem readEntry_of_lt (t : Vector Entry 256) {i : Nat} (hi : i < 256) : readEntry t i = t[i] := by
  rw [readEntry_eq, Vector.getElem?_eq_getElem hi, Option.getD_some]

/-! ### The order of the present values

`rank` numbers the present values in ascending order without a gap, and `valuesBelow` lists each at its rank. -/

theorem rank_le_rank (m : Mask) {u v : Nat} (h : u ≤ v) : rank m u ≤ rank m v := by
  refine monotone_nat_of_le_succ (fun n => ?_) h
  rw [rank_succ]
  split <;> omega

theorem rank_lt_rank {m : Mask} {u v : Nat} (hu : m.getLsbD u = true) (h : u < v) : rank m u < rank m v :=
  calc rank m u < rank m (u + 1) := by simp [rank_succ, hu]
    _ ≤ rank m v := rank_le_rank m h

/-- Each number below the size is the rank of a present value. -/
theorem exists_present_of_lt_rank {m : Mask} {n i : Nat} (h : i < rank m n) :
    ∃ v < n, m.getLsbD v = true ∧ rank m v = i := by
  induction n with
  | zero => exact absurd h (Nat.not_lt_zero i)
  | succ n ih =>
    by_cases hi : i < rank m n
    · obtain ⟨v, hv, hpresent, hrank⟩ := ih hi
      exact ⟨v, hv.trans n.lt_succ_self, hpresent, hrank⟩
    · rw [rank_succ] at h
      split at h
      · next hn => exact ⟨n, n.lt_succ_self, hn, by omega⟩
      · exact absurd h hi

theorem getD_valuesBelow_rank {m : Mask} {v n : Nat} (hv : m.getLsbD v = true) (h : v < n) (d : Nat) :
    (valuesBelow m n).getD (rank m v) d = v := by
  induction n, h using Nat.le_induction with
  | base => simp [valuesBelow_succ, hv, ← length_valuesBelow]
  | succ n h ih =>
    rw [valuesBelow_succ]
    split
    · rw [List.getD_append _ _ _ _ (by rw [length_valuesBelow]; exact rank_lt_rank hv h), ih]
    · exact ih

/-! ### Tables that match the mask (R24) -/

theorem vsize_of_mapMatches {t : State} (h : t.mapMatches) : t.vsize.toNat = rank t.vmask 256 := by
  obtain ⟨hsize, -, -⟩ := h
  rw [hsize, presentValues_eq, length_valuesBelow]

theorem forward_of_present {t : State} (h : t.mapMatches) {v : Byte} (hv : t.vmask.getLsbD v.toNat = true) :
    (t.forward v).toNat = rank t.vmask v.toNat := by
  obtain ⟨-, hforward, -⟩ := h
  rw [hforward, expectedForward, if_pos hv]

/-- The low byte of an entry of `FWD` is the rank, for a present and for an absent value. -/
theorem forward_low_byte {t : State} (h : t.mapMatches) (v : Byte) :
    ((t.forward v).setWidth 8).toNat = rank t.vmask v.toNat := by
  obtain ⟨-, hforward, -⟩ := h
  have hrank : rank t.vmask v.toNat < 256 := (rank_le _ _).trans_lt v.isLt
  rw [BitVec.toNat_setWidth, hforward, expectedForward]
  split <;> omega

/-- `INV` at the rank of a present value holds that value. -/
theorem inverse_rank {t : State} (h : t.mapMatches) {v : Byte} (hv : t.vmask.getLsbD v.toNat = true) :
    t.inverse (rank t.vmask v.toNat) = v.setWidth 9 := by
  obtain ⟨-, -, hinverse⟩ := h
  have hrank : rank t.vmask v.toNat < 256 := (rank_le _ _).trans_lt v.isLt
  have hentry := hinverse (BitVec.ofNat 8 (rank t.vmask v.toNat))
  rw [BitVec.toNat_ofNat, Nat.mod_eq_of_lt hrank, expectedInverse, presentValues_eq,
    getD_valuesBelow_rank hv v.isLt] at hentry
  refine BitVec.eq_of_toNat_eq ?_
  rw [hentry, BitVec.toNat_setWidth_of_le (by decide)]

/-- Every index below the size is that of a present value. -/
theorem exists_present_of_lt_vsize {t : State} (h : t.mapMatches) {i : Nat} (hi : i < t.vsize.toNat) :
    ∃ v : Byte, t.vmask.getLsbD v.toNat = true ∧ rank t.vmask v.toNat = i := by
  rw [vsize_of_mapMatches h] at hi
  obtain ⟨v, hv, hpresent, hrank⟩ := exists_present_of_lt_rank hi
  have hbyte : (BitVec.ofNat 8 v).toNat = v := by rw [BitVec.toNat_ofNat, Nat.mod_eq_of_lt hv]
  exact ⟨BitVec.ofNat 8 v, by rwa [hbyte], by rw [hbyte, hrank]⟩

/-- Settles O28: the built tables match the mask, so `FWD` on the present values is their rank, and `INV` undoes it. -/
theorem byteMapIsAnOrderedBijection : Obligations.ByteMapIsAnOrderedBijection := by
  intro s
  have hmap := buildMap_mapMatches s
  refine ⟨vsize_of_mapMatches hmap, fun v hv => ?_, fun i hi => ?_, fun u v hu hv huv => ?_, forward_low_byte hmap⟩
  · rw [forward_of_present hmap hv, vsize_of_mapMatches hmap, inverse_rank hmap hv]
    exact ⟨rank_lt_rank hv v.isLt, BitVec.toNat_setWidth_of_le (by decide)⟩
  · obtain ⟨v, hv, rfl⟩ := exists_present_of_lt_vsize hmap hi
    have hvalue : (v.setWidth 9).toNat = v.toNat := BitVec.toNat_setWidth_of_le (by decide)
    have hback : (v.setWidth 9).setWidth 8 = v := by simp
    rw [inverse_rank hmap hv, hvalue, hback]
    exact ⟨v.isLt, hv, forward_of_present hmap hv⟩
  · rw [forward_of_present hmap hu, forward_of_present hmap hv]
    exact rank_lt_rank hu huv

/-! ### The bits of a written mask -/

theorem markValue_getLsbD (m : Mask) (b : Byte) (v : Nat) :
    (markValue m b).getLsbD v = (v == b.toNat || m.getLsbD v) := by
  have hb := b.isLt
  simp only [markValue, BitVec.getLsbD_or, BitVec.getLsbD_shiftLeft, BitVec.getLsbD_one]
  grind

/-- A word moved to place `k` has its bits at that place, and no others. -/
theorem getLsbD_word_at (w : Word) (k : BitVec 3) {v : Nat} (hv : v < 256) :
    (w.zeroExtend 256 <<< (32 * k.toNat)).getLsbD v = (decide (v / 32 = k.toNat) && w.getLsbD (v % 32)) := by
  rw [BitVec.getLsbD_shiftLeft, BitVec.getLsbD_setWidth]
  by_cases hplace : v / 32 = k.toNat
  · have hoffset : v - 32 * k.toNat = v % 32 := by omega
    have hreached : ¬v < 32 * k.toNat := by omega
    have hwide : v % 32 < 256 := by omega
    simp [hplace, hoffset, hreached, hwide, hv]
  · by_cases hbelow : v < 32 * k.toNat
    · simp [hplace, hbelow]
    · simp [hplace, w.getLsbD_of_ge (v - 32 * k.toNat) (by omega)]

/-- The word's place is cleared, then written (R66). -/
theorem setMaskWord_getLsbD (m : Mask) (k : BitVec 3) (w : Word) {v : Nat} (hv : v < 256) :
    (setMaskWord m k w).getLsbD v = if v / 32 = k.toNat then w.getLsbD (v % 32) else m.getLsbD v := by
  have hones : (0xFFFFFFFF#32).getLsbD (v % 32) = true := by
    rw [show 0xFFFFFFFF#32 = BitVec.allOnes 32 from rfl, BitVec.getLsbD_allOnes, decide_eq_true (by omega)]
  simp only [setMaskWord, BitVec.getLsbD_or, BitVec.getLsbD_and, BitVec.getLsbD_not, getLsbD_word_at _ k hv, hones]
  split
  · next hplace => simp [hplace]
  · next hplace => simp [hplace, hv]

/-- Settles O25: after the shared check of `IDLE` the mask is `markValue`'s. -/
theorem vmarkSetsItsBit : Obligations.VmarkSetsItsBit := fun b =>
  ⟨congrArg (fun w => [w]) (append_eq_or (0x12#8 ++ 0#16) b),
    fun s h0 hp => ⟨markValue s.vmask b, idleCommand_of_idle h0 hp _, fun v _ => markValue_getLsbD s.vmask b v⟩,
    fun _ h0 hp => idleCommand_of_not_idle h0 hp _⟩

/-- Settles O26: after the shared check of `IDLE` the mask is `setMaskWord`'s. -/
theorem setmaskReplacesItsWord : Obligations.SetmaskReplacesItsWord := fun k w =>
  ⟨congrArg (fun v => [v, w]) (append_eq_or (0x80#8 ++ 0#21) k),
    fun s h0 hp => ⟨setMaskWord s.vmask k w, idleCommand_of_idle h0 hp _,
      fun _ hv => setMaskWord_getLsbD s.vmask k w hv⟩,
    fun _ h0 hp => idleCommand_of_not_idle h0 hp _⟩

/-- Settles O27: in `IDLE` the outcome is `buildMap` with its size as the response, and its tables match the mask. -/
theorem vmbuildBuildsTheMap : Obligations.VmbuildBuildsTheMap :=
  ⟨rfl,
    fun s h0 hp => ⟨s.buildMap.answer false (s.buildMap.vsize.zeroExtend 32), idleCommand_of_idle h0 hp _,
      (mapMatches_answer _ _ _).2 (buildMap_mapMatches s), rfl⟩,
    fun _ h0 hp => idleCommand_of_not_idle h0 hp _⟩

/-- Settles O24: both words are closed, and both commands are their effect behind the check of `IDLE`. -/
theorem vmclrAndVmallWriteTheWholeMask : Obligations.VmclrAndVmallWriteTheWholeMask :=
  ⟨rfl, rfl, fun _ h0 hp => ⟨idleCommand_of_idle h0 hp _, idleCommand_of_idle h0 hp _⟩,
    fun _ h0 hp => ⟨idleCommand_of_not_idle h0 hp _, idleCommand_of_not_idle h0 hp _⟩⟩

theorem exec_vmfwd {s : State} (h0 : s.fault = 0) (hv : s.vmv = true) (x : Byte) :
    exec (.vmfwd x) s = .next (s.answer false ((s.forward x).zeroExtend 32)) := mapCommand_of_map h0 hv _

theorem exec_vminv {s : State} (h0 : s.fault = 0) (hv : s.vmv = true) (x : Byte) :
    exec (.vminv x) s = .next (s.answer false ((s.inverse x.toNat).zeroExtend 32)) := mapCommand_of_map h0 hv _

/-- Settles O29: both commands answer the entry behind the check of `VMV`, and the response widens it without loss. -/
theorem vmfwdAndVminvReadTheTables : Obligations.VmfwdAndVminvReadTheTables := by
  intro x
  refine ⟨congrArg (fun w => [w]) (append_eq_or (0x14#8 ++ 0#16) x),
    congrArg (fun w => [w]) (append_eq_or (0x15#8 ++ 0#16) x),
    fun s h0 hv => ⟨?_, ?_⟩, fun s h0 hv ⟨_, hforward, hinverse⟩ => ?_,
    fun s h0 hv => ⟨mapCommand_of_no_map h0 hv _, mapCommand_of_no_map h0 hv _⟩⟩
  · rw [exec_vmfwd h0 hv, State.forward, readEntry_of_lt _ x.isLt]
  · rw [exec_vminv h0 hv, State.inverse, readEntry_of_lt _ x.isLt]
  · refine ⟨_, _, exec_vmfwd h0 hv x, ?_, exec_vminv h0 hv x, ?_⟩
    · rw [BitVec.zeroExtend, BitVec.toNat_setWidth_of_le (by decide), hforward]
    · rw [BitVec.zeroExtend, BitVec.toNat_setWidth_of_le (by decide), hinverse]

end Sys2Proof.Machine

/-! # The header commands (42_header.md) -/

namespace Sys2Proof

/-! ### The length field (R71, R73) -/

/-- The number of two adjoined fields, as `SETLEN`'s operand and the length field of the header are assembled. -/
theorem append_eq_ofNat {n k : Nat} (high : BitVec n) (low : BitVec k) :
    high ++ low = BitVec.ofNat (n + k) (high.toNat * 2 ^ k + low.toNat) := by
  have hsum : (high ++ low).toNat = high.toNat * 2 ^ k + low.toNat := by
    rw [BitVec.toNat_append, ← Nat.shiftLeft_add_eq_or_of_lt low.isLt, Nat.shiftLeft_eq]
  rw [← hsum, BitVec.ofNat_toNat, BitVec.setWidth_eq]

end Sys2Proof

namespace Sys2Proof.Machine

/-- One turn of `L <- (L << 8) | InByte()` on a length known as a number (R75). -/
theorem lenStep_ofNat (x : Nat) (b : Byte) :
    (BitVec.ofNat 40 x <<< 8 ||| b.zeroExtend 40 : Len) = BitVec.ofNat 40 (x * 2 ^ 8 + b.toNat) := by
  have happend : (BitVec.ofNat 40 x <<< 8 ||| b.zeroExtend 40 : Len) = (BitVec.ofNat 32 x ++ b).setWidth 40 := by
    refine BitVec.eq_of_getLsbD_eq fun i hi => ?_
    simp only [BitVec.zeroExtend, BitVec.getLsbD_or, BitVec.getLsbD_shiftLeft, BitVec.getLsbD_setWidth,
      BitVec.getLsbD_append, BitVec.getLsbD_ofNat]
    grind
  rw [happend, append_eq_ofNat]
  refine BitVec.eq_of_toNat_eq ?_
  simp only [BitVec.toNat_setWidth, BitVec.toNat_ofNat]
  omega

/-- Five bytes of IN read as a length, most significant first (R75). -/
theorem lenOfBytes_five (b0 b1 b2 b3 b4 : Byte) :
    lenOfBytes [b0, b1, b2, b3, b4] = BitVec.ofNat 40
      (b0.toNat * 2 ^ 32 + b1.toNat * 2 ^ 24 + b2.toNat * 2 ^ 16 + b3.toNat * 2 ^ 8 + b4.toNat) := by
  have hhorner : lenOfBytes [b0, b1, b2, b3, b4] = BitVec.ofNat 40
      (((((0 * 2 ^ 8 + b0.toNat) * 2 ^ 8 + b1.toNat) * 2 ^ 8 + b2.toNat) * 2 ^ 8 + b3.toNat) * 2 ^ 8 + b4.toNat) := by
    simp only [← lenStep_ofNat]
    rfl
  rw [hhorner]
  exact congrArg _ (by omega)

/-- The length field is read back as the length written (R76). -/
theorem lenOfBytes_lenBytes (n : Len) : lenOfBytes (lenBytes n) = n := by
  have hn := n.isLt
  rw [lenBytes, lenOfBytes_five]
  refine BitVec.eq_of_toNat_eq ?_
  simp only [BitVec.toNat_ofNat, BitVec.extractLsb'_toNat, Nat.shiftRight_eq_div_pow]
  omega

theorem length_lenBytes (n : Len) : (lenBytes n).length = lengthBytes := rfl

/-! ### The bitmap (R71) -/

theorem length_bitmapOfMask (m : Mask) : (bitmapOfMask m).length = bitmapBytes := by
  rw [bitmapOfMask, List.length_map, List.length_range]

theorem bitmapOfMask_getLsbD (m : Mask) {i j : Nat} (hi : i < bitmapBytes) (hj : j < 8) :
    ((bitmapOfMask m).getD i 0).getLsbD j = m.getLsbD (8 * i + j) := by
  have hbyte : (bitmapOfMask m).getD i 0 = m.extractLsb' (8 * i) 8 := by simp [bitmapOfMask, hi]
  rw [hbyte, BitVec.getLsbD_extractLsb', decide_eq_true hj, Bool.true_and]

/-- The first byte of a bitmap holds the eight lowest bits of the mask. -/
theorem maskOfBitmap_cons_getLsbD (b : Byte) (bm : List Byte) {k : Nat} (hk : k < 256) :
    (maskOfBitmap (b :: bm)).getLsbD k = if k < 8 then b.getLsbD k else (maskOfBitmap bm).getLsbD (k - 8) := by
  have hcons : maskOfBitmap (b :: bm) = maskOfBitmap bm <<< 8 ||| b.zeroExtend 256 := rfl
  rw [hcons, BitVec.getLsbD_or, BitVec.getLsbD_shiftLeft, BitVec.getLsbD_setWidth]
  split
  · next hlow => simp [hlow, hk]
  · next hhigh => simp [hhigh, hk, b.getLsbD_of_ge k (not_lt.1 hhigh)]

/-- Bit `j` of byte `i` is bit `8i + j` of the mask; a byte the bitmap does not have reads as 0. -/
theorem maskOfBitmap_getLsbD (bm : List Byte) {i j : Nat} (hi : i < bitmapBytes) (hj : j < 8) :
    (maskOfBitmap bm).getLsbD (8 * i + j) = (bm.getD i 0).getLsbD j := by
  simp only [bitmapBytes] at hi
  induction bm generalizing i with
  | nil => simp [maskOfBitmap]
  | cons b bm ih =>
    rw [maskOfBitmap_cons_getLsbD b bm (by omega)]
    cases i with
    | zero => simp [hj]
    | succ i =>
      rw [if_neg (by omega), show 8 * (i + 1) + j - 8 = 8 * i + j by omega, ih (by omega), List.getD_cons_succ]

/-- The bitmap is read back as the mask written (R76). -/
theorem maskOfBitmap_bitmapOfMask (m : Mask) : maskOfBitmap (bitmapOfMask m) = m := by
  refine BitVec.eq_of_getLsbD_eq fun v hv => ?_
  have hi : v / 8 < bitmapBytes := by simp only [bitmapBytes]; omega
  have hj : v % 8 < 8 := Nat.mod_lt v (by decide)
  rw [← Nat.div_add_mod v 8, maskOfBitmap_getLsbD _ hi hj, bitmapOfMask_getLsbD m hi hj]

/-! ### The mask alone decides the map (R24, R67) -/

theorem vector_eq_of_readEntry_eq {t u : Vector Entry 256}
    (h : ∀ b : Byte, readEntry t b.toNat = readEntry u b.toNat) : t = u := by
  refine Vector.ext fun i hi => ?_
  have hentry := h (BitVec.ofNat 8 i)
  rwa [BitVec.toNat_ofNat, Nat.mod_eq_of_lt hi, readEntry_of_lt t hi, readEntry_of_lt u hi] at hentry

/-- Tables that match equal masks are equal, whatever they were built from. -/
theorem vocabulary_eq_of_mapMatches {t u : State} (ht : t.mapMatches) (hu : u.mapMatches) (h : t.vmask = u.vmask) :
    t.vmask = u.vmask ∧ t.vsize = u.vsize ∧ t.fwd = u.fwd ∧ t.inv = u.inv := by
  obtain ⟨hsizeT, hfwdT, hinvT⟩ := ht
  obtain ⟨hsizeU, hfwdU, hinvU⟩ := hu
  rw [← h] at hsizeU hfwdU hinvU
  refine ⟨h, BitVec.eq_of_toNat_eq (hsizeT.trans hsizeU.symm), vector_eq_of_readEntry_eq fun b => ?_,
    vector_eq_of_readEntry_eq fun i => ?_⟩
  · exact BitVec.eq_of_toNat_eq ((hfwdT b).trans (hfwdU b).symm)
  · exact BitVec.eq_of_toNat_eq ((hinvT i).trans (hinvU i).symm)

theorem buildMap_answer_mapMatches (s : State) (d : Word) : (s.buildMap.answer false d).mapMatches :=
  (mapMatches_answer _ _ _).2 (buildMap_mapMatches s)

/-! ### `HDRW`, by the three cases of `LEN` (R74) -/

theorem exec_hdrw {s : State} (h0 : s.fault = 0) (hp : s.phase = .idle) : exec .hdrw s = writeHeader s :=
  idleCommand_of_idle h0 hp _

theorem writeHeader_stored {s : State} (h : s.len = 0) :
    writeHeader s = .next (({ s with out := s.out ++ lenBytes s.len } : State).maskChanged.answer false 0) :=
  if_pos h

theorem writeHeader_short {s : State} (h : s.len ≠ 0) (hl : s.len.toNat < bitmapThreshold) :
    writeHeader s = .next
      (({ s with out := s.out ++ lenBytes s.len, vmask := BitVec.allOnes 256 } : State).buildMap.answer false 1) := by
  rw [writeHeader, if_neg h, if_pos hl]
  rfl

theorem writeHeader_mapped {s : State} (hl : bitmapThreshold ≤ s.len.toNat) :
    writeHeader s = .next
      (({ s with out := s.out ++ (lenBytes s.len ++ bitmapOfMask s.vmask) } : State).buildMap.answer false 2) := by
  have h : s.len ≠ 0 := by intro h; simp [h, bitmapThreshold] at hl
  rw [writeHeader, if_neg h, if_neg (not_lt.2 hl)]
  rfl

/-! ### `HDRR`, by the three cases of the length (R75) -/

theorem exec_hdrr {s : State} (h0 : s.fault = 0) (hp : s.phase = .idle) : exec .hdrr s = orHold (readHeader s) :=
  idleCommand_of_idle h0 hp _

theorem readHeader_of_append {s : State} {field rest : List Byte} (h : s.inp = field ++ rest)
    (hlen : field.length = lengthBytes) : readHeader s = readHeaderRest s (lenOfBytes field) rest := by
  rw [readHeader, takeBytes_eq_some.2 ⟨h, hlen⟩]
  rfl

theorem readHeader_of_few {s : State} (h : s.inp.length < lengthBytes) : readHeader s = none := by
  rw [readHeader, takeBytes_eq_none.2 h]
  rfl

theorem readHeaderRest_stored (s : State) (rest : List Byte) :
    readHeaderRest s 0 rest =
      some (.next (({ s with len := 0, inp := rest } : State).maskChanged.answer false 0)) := rfl

theorem readHeaderRest_short (s : State) {l : Len} (rest : List Byte) (h : l ≠ 0)
    (hl : l.toNat < bitmapThreshold) : readHeaderRest s l rest =
      some (.next (({ s with len := l, inp := rest, vmask := BitVec.allOnes 256 } : State).buildMap.answer
        false 1)) := by
  rw [readHeaderRest, if_neg h, if_pos hl]
  rfl

/-- From the threshold on, the outcome is decided by whether the bitmap is whole. -/
theorem readHeaderRest_long (s : State) {l : Len} (rest : List Byte) (hl : bitmapThreshold ≤ l.toNat) :
    readHeaderRest s l rest = (takeBytes bitmapBytes rest).map fun r =>
      respond 2 ({ s with len := l, inp := r.2, vmask := maskOfBitmap r.1 } : State).buildMap := by
  have h : l ≠ 0 := by rintro rfl; simp [bitmapThreshold] at hl
  rw [readHeaderRest, if_neg h, if_neg (not_lt.2 hl)]

theorem readHeaderRest_mapped (s : State) {l : Len} (bitmap rest : List Byte) (hl : bitmapThreshold ≤ l.toNat)
    (hlen : bitmap.length = bitmapBytes) : readHeaderRest s l (bitmap ++ rest) =
      some (.next (({ s with len := l, inp := rest, vmask := maskOfBitmap bitmap } : State).buildMap.answer
        false 2)) := by
  rw [readHeaderRest_long s _ hl, takeBytes_eq_some.2 ⟨rfl, hlen⟩]
  rfl

theorem readHeaderRest_truncated (s : State) {l : Len} {rest : List Byte} (hl : bitmapThreshold ≤ l.toNat)
    (hlen : rest.length < bitmapBytes) : readHeaderRest s l rest = none := by
  rw [readHeaderRest_long s _ hl, takeBytes_eq_none.2 hlen, Option.map_none]

/-! ### The round trip (R76) -/

@[simp] theorem State.answer_lastData (s : State) (err : Bool) (data : Word) : (s.answer err data).lastData = data := by
  simp [State.lastData]

/-- `HDRR` on a length field that `HDRW` wrote goes on with that length. -/
theorem readHeader_of_lenBytes {s : State} {n : Len} {rest : List Byte} (h : s.inp = lenBytes n ++ rest) :
    readHeader s = readHeaderRest s n rest := by
  rw [readHeader_of_append h (length_lenBytes n), lenOfBytes_lenBytes]

/-- Settles O33: the length field and the bitmap are read back as written, and equal masks give equal maps. -/
theorem hdrrInvertsHdrw : Obligations.HdrrInvertsHdrw := by
  intro s t d header tail h0 hp hw hout hd0 hdp hinp
  rw [exec_hdrw h0 hp] at hw
  rw [exec_hdrr hd0 hdp]
  by_cases hzero : s.len = 0
  · obtain rfl := Host.Outcome.next.inj ((writeHeader_stored hzero).symm.trans hw)
    obtain rfl := List.append_cancel_left hout
    rw [readHeader_of_lenBytes hinp, hzero, readHeaderRest_stored]
    exact ⟨_, rfl, rfl, rfl, by simp, rfl, rfl, rfl, fun h => absurd rfl h, fun _ => ⟨rfl, rfl, rfl, rfl⟩⟩
  by_cases hshort : s.len.toNat < bitmapThreshold
  · obtain rfl := Host.Outcome.next.inj ((writeHeader_short hzero hshort).symm.trans hw)
    obtain rfl := List.append_cancel_left hout
    rw [readHeader_of_lenBytes hinp, readHeaderRest_short d tail hzero hshort]
    refine ⟨_, rfl, rfl, rfl, by simp, rfl, rfl, rfl, fun _ => ?_, fun h => absurd h hzero⟩
    exact vocabulary_eq_of_mapMatches (buildMap_answer_mapMatches _ _) (buildMap_answer_mapMatches _ _) rfl
  · have hlong : bitmapThreshold ≤ s.len.toNat := not_lt.1 hshort
    obtain rfl := Host.Outcome.next.inj ((writeHeader_mapped hlong).symm.trans hw)
    obtain rfl := List.append_cancel_left hout
    rw [List.append_assoc] at hinp
    rw [readHeader_of_lenBytes hinp, readHeaderRest_mapped d _ tail hlong (length_bitmapOfMask _)]
    refine ⟨_, rfl, rfl, rfl, by simp, rfl, rfl, rfl, fun _ => ?_, fun h => absurd h hzero⟩
    exact vocabulary_eq_of_mapMatches (buildMap_answer_mapMatches _ _) (buildMap_answer_mapMatches _ _)
      (maskOfBitmap_bitmapOfMask s.vmask)

/-! ### The commands as the rules write them -/

/-- Settles O31: the three cases of `writeHeader`, the bitmap being `bitmapOfMask`'s. -/
theorem hdrwWritesTheHeader : Obligations.HdrwWritesTheHeader := by
  refine ⟨rfl, fun s h0 hp => ?_, fun s h0 hp => idleCommand_of_not_idle h0 hp _⟩
  rw [exec_hdrw h0 hp]
  refine ⟨fun hzero => writeHeader_stored hzero, fun hpos hshort => writeHeader_short ?_ hshort, fun hlong => ?_⟩
  · intro hzero
    simp [hzero] at hpos
  · refine ⟨bitmapOfMask s.vmask, length_bitmapOfMask _, fun _ _ hi hj => bitmapOfMask_getLsbD _ hi hj, ?_⟩
    rw [writeHeader_mapped hlong, List.append_assoc]
    rfl

/-- Settles O32: five bytes give `lenOfBytes`, and its cases are those of `readHeaderRest`. -/
theorem hdrrReadsTheHeader : Obligations.HdrrReadsTheHeader := by
  refine ⟨rfl, fun s b0 b1 b2 b3 b4 rest h0 hp hinp => ?_, fun s h0 hp hfew => ?_,
    fun s h0 hp => idleCommand_of_not_idle h0 hp _⟩
  · have hread : readHeader s = readHeaderRest s (lenOfBytes [b0, b1, b2, b3, b4]) rest :=
      readHeader_of_append hinp rfl
    rw [lenOfBytes_five] at hread
    rw [exec_hdrr h0 hp, hread]
    intro n
    have hn : (BitVec.ofNat 40 n).toNat = n := by
      rw [BitVec.toNat_ofNat, Nat.mod_eq_of_lt (by omega)]
    refine ⟨fun hzero => ?_, fun hpos hshort => ?_, fun hlong hfew => ?_, fun hlong bitmap rest' hrest hlen => ?_⟩
    · rw [show BitVec.ofNat 40 _ = 0 from congrArg (BitVec.ofNat 40) hzero, readHeaderRest_stored]
      rfl
    · have hne : BitVec.ofNat 40 n ≠ 0 := fun h => by simp [h] at hn; omega
      rw [readHeaderRest_short s rest hne (hn.trans_lt hshort)]
      rfl
    · rw [readHeaderRest_truncated s (hlong.trans_eq hn.symm) hfew]
      rfl
    · refine ⟨maskOfBitmap bitmap, fun _ _ hi hj => maskOfBitmap_getLsbD bitmap hi hj, ?_⟩
      rw [hrest, readHeaderRest_mapped s bitmap rest' (hlong.trans_eq hn.symm) hlen]
      rfl
  · rw [exec_hdrr h0 hp, readHeader_of_few hfew]
    rfl

/-- Settles O30: after the shared check of `IDLE` the length is the operand `{hi8, ext}` as a number. -/
theorem setlenLoadsTheLength : Obligations.SetlenLoadsTheLength := by
  intro hi8 ext
  refine ⟨congrArg (fun w => [w, ext]) (append_eq_or (0x81#8 ++ 0#16) hi8), fun s h0 hp => ?_,
    fun s h0 hp => idleCommand_of_not_idle h0 hp _⟩
  rw [← append_eq_ofNat hi8 ext]
  exact idleCommand_of_idle h0 hp _

end Sys2Proof.Machine

/-! # The predictor commands (44_predictor.md) -/

namespace Sys2Proof.Machine

/-! ### The latch is fresh (R25, R85) -/

/-- The latch is cleared by `PLV <- 0`, whatever else a command writes. -/
theorem latchFresh_of_cleared {s : State} (h : s.plv = false) : s.latchFresh := fun hplv =>
  absurd hplv (by simp [h])

theorem latchFresh_of_refused_or_raised {s t : State} (hs : s.latchFresh) (h : Refused s t ∨ Raised s t) :
    t.latchFresh := by
  rcases h with ⟨-, rfl⟩ | ⟨-, c, rfl⟩
  · exact hs
  · exact hs

/-- Leaves a command's own outcome to show: a refusal and a fault touch neither the latch nor the predictor. -/
theorem latchFresh_of_outcome {s t : State} {own : Prop} (hs : s.latchFresh) (h : Refused s t ∨ Raised s t ∨ own)
    (f : own → t.latchFresh) : t.latchFresh :=
  (or_assoc.2 h).elim (latchFresh_of_refused_or_raised hs) f

/-- What `PPRED` latches is the prediction of the `PSTATE` it leaves (R87). -/
theorem latchFresh_of_ppred {s : State} {node : Node} (hprv : s.prv = true) (hnode : nodeInRange node) (d : Word) :
    (({ s.latch (s.prediction Config.pred node) node with plv := true } : State).answer false d).latchFresh :=
  fun _ => ⟨hprv, hnode, rfl⟩

/-- Both ways a header command leaves the mask clear `PLV` (R62, R67). -/
theorem latchFresh_of_writeHeader {s t : State} (h : writeHeader s = .next t) : t.latchFresh := by
  obtain ⟨bytes, d, -, rfl | ⟨m, rfl⟩⟩ := writeHeader_frame h
  · exact latchFresh_of_cleared rfl
  · exact latchFresh_of_cleared rfl

theorem latchFresh_of_readHeader {s t : State} (h : readHeader s = some (.next t)) : t.latchFresh := by
  obtain ⟨used, rest, l, d, -, -, rfl | ⟨m, rfl⟩⟩ := readHeader_frame h
  · exact latchFresh_of_cleared rfl
  · exact latchFresh_of_cleared rfl

theorem latchFresh_of_startDecoder {s t : State} (h : startDecoder s = some (.next t)) : t.latchFresh := by
  obtain ⟨coded, rest, -, -, rfl⟩ := startDecoder_next h
  exact latchFresh_of_cleared rfl

theorem latchFresh_of_decodeBit {s t : State} {p : Prob} {bit : Bool} (hs : s.latchFresh)
    (h : s.decodeBit p = some (bit, t)) (d : Word) : (t.answer false d).latchFresh := by
  obtain ⟨win, rest, -, rfl⟩ := decodeBit_some h
  exact hs

/-- `PPRED` makes the latch fresh; the other writers of the latch or of the predictor clear `PLV`; the rest leave both
alone. -/
theorem exec_keeps_latchFresh {i : Instr} {s t : State} (hs : s.latchFresh) (h : exec i s = .next t) :
    t.latchFresh := by
  cases i with
  | ppred node =>
    exact latchFresh_of_outcome hs (execPpred_next h) fun ⟨_, _, hprv, hnode, e⟩ => e ▸ latchFresh_of_ppred hprv hnode _
  | pobs node bit =>
    exact latchFresh_of_outcome hs (execPobs_next h) fun ⟨_, _, _, _, _, e⟩ => e ▸ latchFresh_of_cleared rfl
  | pinit => exact latchFresh_of_outcome hs (execPinit_next h) fun ⟨_, _, _, _, e⟩ => e ▸ latchFresh_of_cleared rfl
  | encb b => exact latchFresh_of_outcome hs (execEncb_next h) fun ⟨_, _, _, _, e⟩ => e ▸ latchFresh_of_cleared rfl
  | decb =>
    exact latchFresh_of_outcome hs (execDecb_next h) fun ⟨_, _, _, _, _, _, e⟩ => e ▸ latchFresh_of_cleared rfl
  | sreset => exact execSreset_next h ▸ latchFresh_of_cleared rfl
  | vmclr => exact latchFresh_of_outcome hs (execVmclr_next h) fun ⟨_, _, e⟩ => e ▸ latchFresh_of_cleared rfl
  | vmall => exact latchFresh_of_outcome hs (execVmall_next h) fun ⟨_, _, e⟩ => e ▸ latchFresh_of_cleared rfl
  | vmark b => exact latchFresh_of_outcome hs (execVmark_next h) fun ⟨_, _, e⟩ => e ▸ latchFresh_of_cleared rfl
  | setmask k ext => exact latchFresh_of_outcome hs (execSetmask_next h) fun ⟨_, _, e⟩ => e ▸ latchFresh_of_cleared rfl
  | vmbuild => exact latchFresh_of_outcome hs (execVmbuild_next h) fun ⟨_, _, e⟩ => e ▸ latchFresh_of_cleared rfl
  | hdrw => exact latchFresh_of_outcome hs (execHdrw_next h) fun ⟨_, _, hw⟩ => latchFresh_of_writeHeader hw
  | hdrr => exact latchFresh_of_outcome hs (execHdrr_next h) fun ⟨_, _, hr⟩ => latchFresh_of_readHeader hr
  | estart => exact latchFresh_of_outcome hs (execEstart_next h) fun ⟨_, _, e⟩ => e ▸ latchFresh_of_cleared rfl
  | dstart => exact latchFresh_of_outcome hs (execDstart_next h) fun ⟨_, _, hd⟩ => latchFresh_of_startDecoder hd
  | dbit p =>
    exact latchFresh_of_outcome hs (execDbit_next h) fun ⟨_, _, _, _, _, hd, e⟩ => e ▸ latchFresh_of_decodeBit hs hd _
  | nop => exact latchFresh_of_outcome hs (execNop_next h) fun ⟨_, e⟩ => e ▸ hs
  | rdr r => exact latchFresh_of_outcome hs (execRdr_next h) fun ⟨_, _, e⟩ => e ▸ hs
  | stop => exact latchFresh_of_outcome hs (execStop_next h) fun ⟨_, _, e⟩ => e ▸ hs
  | vmfwd b => exact latchFresh_of_outcome hs (execVmfwd_next h) fun ⟨_, _, e⟩ => e ▸ hs
  | vminv idx => exact latchFresh_of_outcome hs (execVminv_next h) fun ⟨_, _, e⟩ => e ▸ hs
  | setlen hi8 ext => exact latchFresh_of_outcome hs (execSetlen_next h) fun ⟨_, _, e⟩ => e ▸ hs
  | ebit bit p => exact latchFresh_of_outcome hs (execEbit_next h) fun ⟨_, _, _, e⟩ => e ▸ hs
  | eflush => exact latchFresh_of_outcome hs (execEflush_next h) fun ⟨_, _, e⟩ => e ▸ hs
  | btrst => exact latchFresh_of_outcome hs (execBtrst_next h) fun ⟨_, _, e⟩ => e ▸ hs
  | btstep bit => exact latchFresh_of_outcome hs (execBtstep_next h) fun ⟨_, _, _, e⟩ => e ▸ hs
  | sstart => exact latchFresh_of_outcome hs (execSstart_next h) fun ⟨_, _, _, _, e⟩ => e ▸ hs
  | trainb b => exact latchFresh_of_outcome hs (execTrainb_next h) fun ⟨_, _, _, _, e⟩ => e ▸ hs
  | xent => exact latchFresh_of_outcome hs (execXent_next h) fun ⟨_, _, _, e⟩ => e ▸ hs
  | gstart => exact latchFresh_of_outcome hs (execGstart_next h) fun ⟨_, _, _, e⟩ => e ▸ hs
  | genb => exact latchFresh_of_outcome hs (execGenb_next h) fun ⟨_, _, e⟩ => e ▸ hs
  | sdist idx => exact latchFresh_of_outcome hs (execSdist_next h) fun ⟨_, _, _, e⟩ => e ▸ hs
  | seed ext => exact latchFresh_of_outcome hs (execSeed_next h) fun ⟨_, e⟩ => e ▸ hs

/-- Settles O40: `step` takes words off the port, which the latch does not see, and then executes a command or takes an
illegal one. -/
theorem latchHoldsTheFreshPrediction : Obligations.LatchHoldsTheFreshPrediction := by
  intro s t hs h
  rcases step_next h with ⟨i, rest, -, he⟩ | ⟨why, rest, -, hi⟩
  · exact exec_keeps_latchFresh (s := { s with cmd := rest }) hs he
  · exact latchFresh_of_refused_or_raised (s := { s with cmd := rest }) hs (illegalCommand_next hi)

end Sys2Proof.Machine

namespace Sys2Proof

/-- Two operand fields below the opcode, as in the format O of `POBS` (R52). -/
theorem append_append_eq_or {n k l : Nat} (high : BitVec n) (x : BitVec k) (y : BitVec l) :
    high ++ x ++ y = (high ++ 0#k ++ 0#l) ||| (x.zeroExtend (n + k + l) <<< l) ||| y.zeroExtend (n + k + l) := by
  refine BitVec.eq_of_getLsbD_eq fun i hi => ?_
  simp only [BitVec.getLsbD_or, BitVec.getLsbD_append, BitVec.getLsbD_shiftLeft, BitVec.getLsbD_setWidth,
    BitVec.getLsbD_zero]
  by_cases hlow : i < l
  · simp [hlow, hi]
  by_cases hmid : i - l < k
  · simp [hlow, hmid, hi, y.getLsbD_of_ge i (not_lt.1 hlow), show i - l < n + k + l by omega]
  · simp [hlow, hmid, y.getLsbD_of_ge i (not_lt.1 hlow), x.getLsbD_of_ge (i - l) (not_lt.1 hmid)]

end Sys2Proof

namespace Sys2Proof.Machine

/-! ### The commands as the rules write them -/

/-- The two checks `PPRED` and `POBS` begin with (R87, R88). -/
theorem predictorCommand_of_ready {s : State} (h0 : s.fault = 0) (hp : s.inBitPhase) (hv : s.prv = true)
    (k : Result) : unlessFaulted s (require s.inBitPhase .seq s (require (s.prv = true) .seq s k)) = k := by
  rw [unlessFaulted_of_zero h0, require_of hp, require_of hv]

theorem require_inBitPhase_of_inSamplerPhase {s : State} (h : s.inSamplerPhase) (k : Result) :
    require s.inBitPhase .seq s k = .next (s.faulted .seq) := by
  have hno : ¬s.inBitPhase := by rcases h with h | h <;> simp [State.inBitPhase, h]
  rw [require_of_not hno, raise_eq]

/-- A check for `F_SEQ` ahead of an outcome that is `F_SEQ` too: the order of the two does not show. -/
theorem require_seq_of_seq {c : Prop} [Decidable c] {s : State} {k : Result} (h : c → k = .next (s.faulted .seq)) :
    require c .seq s k = .next (s.faulted .seq) := by
  by_cases hc : c
  · rw [require_of hc, h hc]
  · rw [require_of_not hc, raise_eq]

theorem require_flag_of_false {b : Bool} (h : b = false) (s : State) (k : Result) :
    require (b = true) .seq s k = .next (s.faulted .seq) := by
  rw [require_of_not (by simp [h]), raise_eq]

/-- Settles O37: past its three checks the command is one update, and each check names its fault. -/
theorem pinitConstructsThePredictor : Obligations.PinitConstructsThePredictor := by
  refine ⟨rfl, fun s h0 hp hv hsize => ?_, fun s h0 h => ?_, fun s h0 hp hv hsize => ?_⟩
  · rw [exec, execPinit, execPinitWith, idleCommand_of_idle h0 hp, require_of hv, require_of hsize]
    rfl
  · rw [exec, execPinit, execPinitWith, unlessFaulted_of_zero h0]
    rcases h with hp | hv
    · rw [require_of_not hp, raise_eq]
    · exact require_seq_of_seq fun _ => require_flag_of_false hv s _
  · rw [exec, execPinit, execPinitWith, idleCommand_of_idle h0 hp, require_of hv, require_of_not (by simp [hsize]),
      raise_eq]

/-- Settles O38: behind the checks the response and the latch are the clamped prediction, which is never 0. -/
theorem ppredLatchesThePrediction : Obligations.PpredLatchesThePrediction := by
  refine fun node => ⟨congrArg (fun w => [w]) (append_eq_or (0x51#8 ++ 0#15) node),
    fun s h0 hp hv hlow hhigh => ⟨s.prediction Config.pred node, clamp_ne_zero _, rfl, ?_⟩,
    fun s h0 h => ?_, fun s h0 hp hv hnode => ?_⟩
  · rw [exec, execPpred, execPpredWith, predictorCommand_of_ready h0 hp hv, require_of ⟨hlow, hhigh⟩]
    rfl
  · rw [exec, execPpred, execPpredWith, unlessFaulted_of_zero h0]
    rcases or_assoc.2 h with hp | hv
    · exact require_inBitPhase_of_inSamplerPhase hp _
    · exact require_seq_of_seq fun _ => require_flag_of_false hv s _
  · rw [exec, execPpred, execPpredWith, predictorCommand_of_ready h0 hp hv,
      require_of_not (by rw [nodeInRange]; omega), raise_eq]

/-- Settles O39: behind the checks `PSTATE` is the update with the latched probability. -/
theorem pobsConsumesThePrediction : Obligations.PobsConsumesThePrediction := by
  refine fun node bit => ⟨congrArg (fun w => [w]) (append_append_eq_or (0x52#8 ++ 0#14) (BitVec.ofBool bit) node),
    fun s h0 hp hv hl hnode => ?_, fun s h0 h => ?_, fun s h0 hp hv hl hnode => ?_⟩
  · rw [exec, execPobs, execPobsWith, predictorCommand_of_ready h0 hp hv, require_of hl, require_of hnode]
    rfl
  · rw [exec, execPobs, execPobsWith, unlessFaulted_of_zero h0]
    rcases or_assoc.2 h with hp | hv | hl
    · exact require_inBitPhase_of_inSamplerPhase hp _
    · exact require_seq_of_seq fun _ => require_flag_of_false hv s _
    · exact require_seq_of_seq fun _ => require_seq_of_seq fun _ => require_flag_of_false hl s _
  · rw [exec, execPobs, execPobsWith, predictorCommand_of_ready h0 hp hv, require_of hl, require_of_not hnode,
      raise_eq]

end Sys2Proof.Machine

/-! # The predictor fixtures (R89, R90) -/

namespace Sys2Proof.Machine

/-! ### TP0: `ENCB` halves the interval eight times -/

/-- The interval of the words whose upper bits are the number `c`, with `w` bits below them free. -/
def dyadic (c w : Nat) : Interval := ⟨BitVec.ofNat 32 (c * 2 ^ w), BitVec.ofNat 32 (c * 2 ^ w + (2 ^ w - 1))⟩

theorem dyadic_whole : dyadic 0 32 = wholeInterval := rfl

theorem dyadic_low_toNat {c w : Nat} (h : (c + 1) * 2 ^ w ≤ 2 ^ 32) : (dyadic c w).low.toNat = c * 2 ^ w := by
  have hpos := Nat.two_pow_pos w
  rw [Nat.add_mul] at h
  rw [dyadic, BitVec.toNat_ofNat, Nat.mod_eq_of_lt (by omega)]

theorem dyadic_high_toNat {c w : Nat} (h : (c + 1) * 2 ^ w ≤ 2 ^ 32) :
    (dyadic c w).high.toNat = c * 2 ^ w + (2 ^ w - 1) := by
  have hpos := Nat.two_pow_pos w
  rw [Nat.add_mul] at h
  rw [dyadic, BitVec.toNat_ofNat, Nat.mod_eq_of_lt (by omega)]

/-- At probability one half the split is the last word of the lower half. -/
theorem split_dyadic_half {c w : Nat} (h : (c + 1) * 2 ^ (w + 1) ≤ 2 ^ 32) :
    split (dyadic c (w + 1)).low (dyadic c (w + 1)).high 32768 = (dyadic (2 * c) w).high := by
  have hpos := Nat.two_pow_pos w
  rw [split, dyadic_low_toNat h, dyadic_high_toNat h, Nat.add_sub_cancel_left, Nat.shiftRight_eq_div_pow, dyadic]
  refine congrArg (BitVec.ofNat 32) ?_
  rw [show c * 2 ^ (w + 1) = 2 * c * 2 ^ w by ring, pow_succ]
  change _ + (2 ^ w * 2 - 1) * 32768 / 65536 = _
  omega

/-- Either half of an interval inside the window is inside it. -/
theorem half_dyadic_le {c w : Nat} (h : (c + 1) * 2 ^ (w + 1) ≤ 2 ^ 32) (bit : Bool) :
    (2 * c + (!bit).toNat + 1) * 2 ^ w ≤ 2 ^ 32 := by
  have hbit := (!bit).toNat_le
  calc (2 * c + (!bit).toNat + 1) * 2 ^ w ≤ (2 * c + 2) * 2 ^ w := Nat.mul_le_mul_right _ (by omega)
    _ = (c + 1) * 2 ^ (w + 1) := by ring
    _ ≤ 2 ^ 32 := h

/-- Bit 1 takes the lower half, bit 0 the upper: the complement of the bit joins the upper bits. -/
theorem narrow_dyadic_half {c w : Nat} (h : (c + 1) * 2 ^ (w + 1) ≤ 2 ^ 32) (bit : Bool) :
    narrow (dyadic c (w + 1)) 32768 bit = dyadic (2 * c + (!bit).toNat) w := by
  have hpos := Nat.two_pow_pos w
  rw [narrow, split_dyadic_half h]
  cases bit with
  | true =>
    have hlow : c * 2 ^ (w + 1) = 2 * c * 2 ^ w := by ring
    simp [dyadic, hlow]
  | false =>
    have hlow : 2 * c * 2 ^ w + (2 ^ w - 1) + 1 = (2 * c + 1) * 2 ^ w := by rw [Nat.add_mul]; omega
    have hhigh : c * 2 ^ (w + 1) + (2 ^ (w + 1) - 1) = (2 * c + 1) * 2 ^ w + (2 ^ w - 1) := by
      rw [show c * 2 ^ (w + 1) = 2 * c * 2 ^ w by ring, Nat.add_mul, pow_succ]; omega
    simp [dyadic, hlow, hhigh, ← BitVec.ofNat_add]

theorem topByte_toNat (v : Word) : (topByte v).toNat = v.toNat / 2 ^ 24 := by
  have := v.isLt
  rw [topByte, BitVec.extractLsb'_toNat, Nat.shiftRight_eq_div_pow]
  omega

/-- With more than 24 bits free the top bytes differ. -/
theorem dyadic_open {c k : Nat} (h : (c + 1) * 2 ^ (25 + k) ≤ 2 ^ 32) : ¬(dyadic c (25 + k)).settled := by
  have hpos := Nat.two_pow_pos k
  rw [Interval.settled, ← BitVec.toNat_inj, topByte_toNat, topByte_toNat, dyadic_low_toNat h, dyadic_high_toNat h,
    show c * 2 ^ (25 + k) = 2 * (c * 2 ^ k) * 2 ^ 24 by ring, show 2 ^ (25 + k) = 2 * 2 ^ k * 2 ^ 24 by ring]
  omega

theorem wholeInterval_open : ¬wholeInterval.settled := by decide

/-- Shifting out the settled byte of an interval with 24 bits free leaves the whole window. -/
theorem dyadic_byte_shift {c : Nat} (h : (c + 1) * 2 ^ 24 ≤ 2 ^ 32) : (dyadic c 24).shift = wholeInterval := by
  have hlow : (dyadic c 24).low <<< 8 = 0x00000000 := by
    refine BitVec.eq_of_toNat_eq ?_
    rw [BitVec.toNat_shiftLeft, dyadic_low_toNat h, Nat.shiftLeft_eq, Nat.mul_assoc]
    exact Nat.mul_mod_left c (2 ^ 32)
  have hhigh : (dyadic c 24).high <<< 8 = 0xFFFFFF00 := by
    refine BitVec.eq_of_toNat_eq ?_
    rw [BitVec.toNat_shiftLeft, dyadic_high_toNat h, Nat.shiftLeft_eq]
    change (c * 16777216 + 16777215) * 256 % 4294967296 = 4294967040
    omega
  rw [Interval.shift, shiftLow, shiftHigh, hlow, hhigh]
  rfl

/-- With 24 bits free the top byte is settled; it is shifted out and the whole window is left. -/
theorem normaliseE_dyadic_byte {c : Nat} (h : c < 256) (n : Nat) :
    normaliseE (n + 1) (dyadic c 24) = ([BitVec.ofNat 8 c], wholeInterval) := by
  have hle : (c + 1) * 2 ^ 24 ≤ 2 ^ 32 := by omega
  have hlow := dyadic_low_toNat hle
  have hhigh := dyadic_high_toNat hle
  have htop : topByte (dyadic c 24).high = BitVec.ofNat 8 c := by
    refine BitVec.eq_of_toNat_eq ?_
    rw [topByte_toNat, hhigh, BitVec.toNat_ofNat]
    omega
  have hsettled : (dyadic c 24).settled := by
    rw [Interval.settled, ← BitVec.toNat_inj, topByte_toNat, topByte_toNat, hlow, hhigh]
    omega
  rw [normaliseE_of_settled hsettled, dyadic_byte_shift hle, normaliseE_of_open wholeInterval_open, htop]

/-- One decision at probability one half, with bits to spare and with the last of the byte. -/
theorem encodeStep_dyadic_open {c k : Nat} (h : (c + 1) * 2 ^ (25 + k + 1) ≤ 2 ^ 32) (bit : Bool) :
    encodeStep (dyadic c (25 + k + 1)) 32768 bit = ([], dyadic (2 * c + (!bit).toNat) (25 + k)) := by
  rw [encodeStep, narrow_dyadic_half h, normaliseE_of_open (dyadic_open (half_dyadic_le h bit))]

theorem encodeStep_dyadic_byte {c : Nat} (h : c < 128) (bit : Bool) :
    encodeStep (dyadic c 25) 32768 bit = ([BitVec.ofNat 8 (2 * c + (!bit).toNat)], wholeInterval) := by
  have hbit := (!bit).toNat_le
  rw [encodeStep, narrow_dyadic_half (by omega), maxShifts, normaliseE_dyadic_byte (by omega)]

/-- The number whose binary digits are those of `c` followed by the complements of the bits. -/
def appendComplements (c : Nat) (bits : List Bool) : Nat := bits.foldl (fun c bit => 2 * c + (!bit).toNat) c

/-- The bits of a byte come most significant first, so their complements are the digits of the complement. -/
theorem complement_of_byteBits (b : Byte) : BitVec.ofNat 8 (appendComplements 0 (byteBits b)) = b ^^^ 0xFF := by
  revert b
  decide

/-- Under TP0 a turn of the loop is one decision at probability one half, and the predictor learns nothing. -/
theorem encodeWalkStep_tp0 (s : State) (bit : Bool) :
    (s.encodeWalkStep tp0 bit).encInterval = (encodeStep s.encInterval 32768 bit).2 ∧
    (s.encodeWalkStep tp0 bit).out = s.out ++ (encodeStep s.encInterval 32768 bit).1 ∧
    (s.encodeWalkStep tp0 bit).pstate = s.pstate := ⟨rfl, rfl, rfl⟩

/-- The walk over the bits left of a byte, from the interval the bits before them gave. -/
theorem encodeWalk_tp0_dyadic {k c : Nat} {bits : List Bool} {s : State} (hlen : bits.length = k + 1)
    (hc : (c + 1) * 2 ^ (25 + k) ≤ 2 ^ 32) (hs : s.encInterval = dyadic c (25 + k)) :
    (s.encodeWalk tp0 bits).encInterval = wholeInterval ∧
    (s.encodeWalk tp0 bits).out = s.out ++ [BitVec.ofNat 8 (appendComplements c bits)] ∧
    (s.encodeWalk tp0 bits).pstate = s.pstate := by
  induction k generalizing c bits s with
  | zero =>
    obtain ⟨bit, rfl⟩ := List.length_eq_one_iff.1 hlen
    have hstep := encodeStep_dyadic_byte (c := c) (by omega) bit
    obtain ⟨hi, ho, hp⟩ := encodeWalkStep_tp0 s bit
    rw [hs, hstep] at hi ho
    exact ⟨hi, ho, hp⟩
  | succ k ih =>
    obtain ⟨bit, rest, rfl⟩ := List.exists_cons_of_length_eq_add_one hlen
    have hstep := encodeStep_dyadic_open (k := k) hc bit
    obtain ⟨hi, ho, hp⟩ := encodeWalkStep_tp0 s bit
    rw [hs, ← Nat.add_assoc, hstep] at hi ho
    obtain ⟨hi', ho', hp'⟩ := ih (by simpa using hlen) (half_dyadic_le hc bit) hi
    rw [ho, List.append_nil] at ho'
    exact ⟨hi', ho', hp'.trans hp⟩

/-- R89 for the command `ENCB`: the byte's eight bits are one walk from the whole window. -/
theorem execEncbWith_tp0 {s : State} (b : Byte) (h0 : s.fault = 0) (hp : s.phase = .enc) (hv : s.prv = true)
    (hstart : s.atByteStart) (hwin : s.encInterval = wholeInterval) : ∃ t : State,
    execEncbWith tp0 b s = .next t ∧ t.out = s.out ++ [b ^^^ 0xFF] ∧ t.encInterval = wholeInterval ∧
    t.pstate = s.pstate := by
  obtain ⟨hi, ho, hps⟩ := encodeWalk_tp0_dyadic (k := 7) (c := 0) (bits := byteBits b) (by simp [byteBits]) (by norm_num)
    (hwin.trans dyadic_whole.symm)
  rw [complement_of_byteBits] at ho
  have hexec : execEncbWith tp0 b s = .next ((s.encodeWalk tp0 (byteBits b)).endByte.answer false 0) := by
    rw [execEncbWith, unlessFaulted_of_zero h0, require_of hp, require_of hv, require_of hstart, respond_eq]
  generalize s.encodeWalk tp0 (byteBits b) = u at hi ho hps hexec
  exact ⟨u.endByte.answer false 0, hexec, ho, hi, hps⟩

/-! ### TP1: the entry an update moves (R90) -/

/-- Every entry of the table is a probability strictly between 0 and 1. -/
def Tp1InRange (st : PredState) : Prop :=
  ∀ (h : Nat) (node : Node), 1 ≤ (tp1Entry st h node).toNat ∧ (tp1Entry st h node).toNat ≤ 65535

theorem tp1Entry_init (m : Mask) (h : Nat) (node : Node) : tp1Entry (tp1.init m) h node = 32768 := rfl

/-- Where R90's `t'` is a 16-bit value, it is the new entry. -/
theorem tp1Next_toNat {t p : Prob} {bit : Bool} {n : Nat} (hn : n < 65536)
    (h : (if bit then (t.toNat : Int) + ((65536 - p.toNat) >>> 4 : Nat) else t.toNat - (p.toNat >>> 4 : Nat)) = n) :
    (tp1Next t p bit).toNat = n := by
  rw [tp1Next]
  simp only [h]
  rw [if_pos (by omega), BitVec.ofInt_natCast, BitVec.toNat_ofNat, Nat.mod_eq_of_lt hn]

/-- Told its own prediction, TP1 moves the entry a sixteenth of the way to the bit. -/
theorem tp1Next_self_toNat {t : Prob} (ht : 1 ≤ t.toNat) (bit : Bool) : (tp1Next t t bit).toNat =
    if bit then t.toNat + (65536 - t.toNat) / 16 else t.toNat - t.toNat / 16 := by
  have hlt := t.isLt
  cases bit with
  | true =>
    refine tp1Next_toNat (by simp only [if_true]; omega) ?_
    simp only [if_true, Nat.shiftRight_eq_div_pow]
    omega
  | false =>
    refine tp1Next_toNat (by simp only [Bool.false_eq_true, if_false]; omega) ?_
    simp only [Bool.false_eq_true, if_false, Nat.shiftRight_eq_div_pow]
    omega

/-- An entry in range stays in range. -/
theorem tp1Next_self_inRange {t : Prob} (ht : 1 ≤ t.toNat) (bit : Bool) :
    1 ≤ (tp1Next t t bit).toNat ∧ (tp1Next t t bit).toNat ≤ 65535 := by
  have hlt := t.isLt
  rw [tp1Next_self_toNat ht]
  split <;> omega

/-! ### TP1: the table and the context after an update -/

section
variable (m h : Nat) (cells : List Nat) (node : Node) (bit : Bool) (p : Prob)

theorem tp1Entry_observe_same : tp1Entry (tp1.observe ⟨m :: h :: cells⟩ node bit p) h node =
    tp1Next (tp1Entry ⟨m :: h :: cells⟩ h node) p bit := Laws.tp1Read_write_same _ _ _ _

theorem tp1Entry_observe_other {h' : Nat} {node' : Node} (hd : ¬(h' = h ∧ node' = node)) :
    tp1Entry (tp1.observe ⟨m :: h :: cells⟩ node bit p) h' node' = tp1Entry ⟨m :: h :: cells⟩ h' node' :=
  Laws.tp1Read_write_other _ _ _ _ _ _ hd

theorem tp1Row_observe : tp1Row (tp1.observe ⟨m :: h :: cells⟩ node bit p) =
    tp1Context (BitVec.ofNat 256 m) h node bit := rfl

end

theorem tp1Context_within {node : Node} (hn : node.toNat < 128) (m : Mask) (h : Nat) (bit : Bool) :
    tp1Context m h node bit = h := if_neg (by omega)

theorem tp1Context_end {node : Node} (hn : 128 ≤ node.toNat) (m : Mask) (h : Nat) (bit : Bool) :
    tp1Context m h node bit = min (rank m ((2 * node.toNat + bit.toNat) % 256)) (rank m 256 - 1) := if_pos hn

/-- The one entry written is a move of an entry in range; a list that is no state of TP1 is left alone. -/
theorem tp1InRange_observe {st : PredState} (hst : Tp1InRange st) (node : Node) (bit : Bool) :
    Tp1InRange (tp1.observe st node bit (tp1.predict st node)) := by
  obtain ⟨_ | ⟨m, _ | ⟨h, cells⟩⟩⟩ := st
  · exact hst
  · exact hst
  intro h' node'
  by_cases hd : h' = h ∧ node' = node
  · obtain ⟨rfl, rfl⟩ := hd
    rw [tp1Entry_observe_same]
    exact tp1Next_self_inRange (hst h' node').1 bit
  · rw [tp1Entry_observe_other _ _ _ _ _ _ hd]
    exact hst h' node'

theorem clamp_of_pos {p : Prob} (h : 1 ≤ p.toNat) : clamp p = p := clamp_of_ne (by rintro rfl; simp at h)

/-- Settles O59: under TP0 the byte is one walk of halvings; under TP1 a told prediction moves the entry it was read from,
and the written cell is the only one that reads differently. -/
theorem predictorFixturesBehave : Obligations.PredictorFixturesBehave := by
  refine ⟨fun s b h0 hp hv hn hb hlow hhigh => ?_, ⟨fun m => ⟨fun h node => ?_, fun _ => rfl⟩,
    fun st node hst => ?_, fun st node bit hst => tp1InRange_observe hst node bit⟩,
    fun m h cells node bit => ?_⟩
  · obtain ⟨t, ht, hout, hwin, hps⟩ := execEncbWith_tp0 b h0 hp hv ⟨hn, hb⟩ (congrArg₂ Interval.mk hlow hhigh)
    exact ⟨t, ht, hout, congrArg Interval.low hwin, congrArg Interval.high hwin, hps⟩
  · rw [tp1Entry_init]
    decide
  · obtain ⟨hpos, hmax⟩ := hst (tp1Row st) node
    exact ⟨hpos, hmax, clamp_of_pos hpos⟩
  · intro st t st' ht
    refine ⟨?_, fun h' node' hd => ?_, fun hn => tp1Context_within hn _ _ _, fun hn => tp1Context_end hn _ _ _⟩
    · exact (congrArg BitVec.toNat (tp1Entry_observe_same m h cells node bit t)).trans (tp1Next_self_toNat ht bit)
    · exact tp1Entry_observe_other m h cells node bit t (by tauto)

end Sys2Proof.Machine

/-! # The coder's interval and its stream (R92 to R94) -/

namespace Sys2Proof.Machine

/-- The bounds enclose `c`. -/
def Interval.Contains (iv : Interval) (c : Word) : Prop := iv.low.toNat ≤ c.toNat ∧ c.toNat ≤ iv.high.toNat

/-- The top byte of `low` is below that of `high`, as it is between two decisions (R26, R27). -/
def Interval.Open (iv : Interval) : Prop := (topByte iv.low).toNat < (topByte iv.high).toNat

theorem Interval.Open.lt {iv : Interval} (h : iv.Open) : iv.low.toNat < iv.high.toNat := by
  rw [Interval.Open, topByte_toNat, topByte_toNat] at h
  omega

theorem wholeInterval_isOpen : wholeInterval.Open := by
  unfold Interval.Open
  decide

theorem wholeInterval_contains (c : Word) : wholeInterval.Contains c := ⟨Nat.zero_le _, Nat.le_of_lt_succ c.isLt⟩

/-! ### Split and narrow (R93) -/

/-- The multiplier is below 65536, so the quotient stays below the width. -/
theorem split_offset_lt {width : Nat} (h : 0 < width) (p : Prob) : width * p.toNat / 65536 < width :=
  Nat.div_lt_of_lt_mul (by rw [Nat.mul_comm]; exact Nat.mul_lt_mul_of_pos_right p.isLt h)

section
variable {iv : Interval} (h : iv.low.toNat < iv.high.toNat) (p : Prob)
include h

theorem split_toNat : (split iv.low iv.high p).toNat =
    iv.low.toNat + (iv.high.toNat - iv.low.toNat) * p.toNat / 65536 := by
  have hoffset := split_offset_lt (Nat.sub_pos_of_lt h) p
  have hhigh := iv.high.isLt
  rw [split, BitVec.toNat_ofNat, Nat.shiftRight_eq_div_pow]
  exact Nat.mod_eq_of_lt (by omega)

theorem split_within : iv.low.toNat ≤ (split iv.low iv.high p).toNat ∧
    (split iv.low iv.high p).toNat < iv.high.toNat := by
  have hoffset := split_offset_lt (Nat.sub_pos_of_lt h) p
  rw [split_toNat h]
  omega

/-- The upper part begins just above the split point, without a wrap. -/
theorem narrow_false_low_toNat : (narrow iv p false).low.toNat = (split iv.low iv.high p).toNat + 1 := by
  obtain ⟨-, hlt⟩ := split_within h p
  have hhigh := iv.high.isLt
  change (split iv.low iv.high p + 1).toNat = _
  rw [BitVec.toNat_add, show (1 : Word).toNat = 1 from rfl, Nat.mod_eq_of_lt (by omega)]

/-- A code word lies in the part of the bit that is decoded from it, and in no other. -/
theorem narrow_contains_iff {bit : Bool} {c : Word} : (narrow iv p bit).Contains c ↔
    iv.Contains c ∧ decodedBit ⟨iv, c⟩ p = bit := by
  obtain ⟨hlow, hhigh⟩ := split_within h p
  cases bit with
  | true =>
    simp only [Interval.Contains, narrow, decodedBit, decide_eq_true_eq, if_true]
    omega
  | false =>
    have hnarrow := narrow_false_low_toNat h p
    have hsame : (narrow iv p false).high = iv.high := rfl
    simp only [Interval.Contains, decodedBit, hnarrow, hsame, decide_eq_false_iff_not]
    omega

theorem narrow_ordered (bit : Bool) : (narrow iv p bit).low.toNat ≤ (narrow iv p bit).high.toNat := by
  obtain ⟨hlow, hhigh⟩ := split_within h p
  cases bit with
  | true => exact hlow
  | false => exact (narrow_false_low_toNat h p).trans_le hhigh

end

/-- Settles O41: the offset of the split point is below the width, so neither the split nor its successor wraps. -/
theorem splitDividesTheInterval : Obligations.SplitDividesTheInterval := by
  intro iv p h x
  obtain ⟨hlow, hhigh⟩ := split_within h p
  exact ⟨split_toNat h p, hlow, Nat.le_sub_one_of_lt hhigh, rfl, rfl, narrow_false_low_toNat h p⟩

/-! ### One byte on (R94) -/

theorem shiftCode_eq_ofNat (c : Word) (b : Byte) : shiftCode c b = BitVec.ofNat 32 (c.toNat * 256 + b.toNat) := by
  have happend : shiftCode c b = c.setWidth 24 ++ b := by
    refine BitVec.eq_of_getLsbD_eq fun i hi => ?_
    simp only [shiftCode, BitVec.zeroExtend, BitVec.getLsbD_or, BitVec.getLsbD_shiftLeft, BitVec.getLsbD_setWidth,
      BitVec.getLsbD_append]
    grind
  rw [happend, append_eq_ofNat]
  refine BitVec.eq_of_toNat_eq ?_
  simp only [BitVec.toNat_setWidth, BitVec.toNat_ofNat]
  omega

theorem shiftCode_toNat (c : Word) (b : Byte) : (shiftCode c b).toNat = c.toNat % 2 ^ 24 * 256 + b.toNat := by
  have hb := b.isLt
  rw [shiftCode_eq_ofNat, BitVec.toNat_ofNat]
  omega

/-- The bounds move on as the code window does, with the byte 0x00 below and 0xFF above. -/
theorem shiftLow_eq_shiftCode (v : Word) : shiftLow v = shiftCode v 0x00 := by simp [shiftLow, shiftCode]

theorem shiftHigh_eq_shiftCode (v : Word) : shiftHigh v = shiftCode v 0xFF := by simp [shiftHigh, shiftCode]

theorem shift_low_toNat (iv : Interval) : iv.shift.low.toNat = iv.low.toNat % 2 ^ 24 * 256 := by
  change (shiftLow iv.low).toNat = _
  rw [shiftLow_eq_shiftCode, shiftCode_toNat, show (0x00 : Byte).toNat = 0 from rfl, Nat.add_zero]

theorem shift_high_toNat (iv : Interval) : iv.shift.high.toNat = iv.high.toNat % 2 ^ 24 * 256 + 255 := by
  change (shiftHigh iv.high).toNat = _
  rw [shiftHigh_eq_shiftCode, shiftCode_toNat, show (0xFF : Byte).toNat = 255 from rfl]

theorem settled_iff (iv : Interval) : iv.settled ↔ iv.low.toNat / 2 ^ 24 = iv.high.toNat / 2 ^ 24 := by
  rw [Interval.settled, ← BitVec.toNat_inj, topByte_toNat, topByte_toNat]

/-- Below a settled byte the order of the bounds is that of what is left of them. -/
theorem shift_ordered {iv : Interval} (hs : iv.settled) (h : iv.low.toNat ≤ iv.high.toNat) :
    iv.shift.low.toNat ≤ iv.shift.high.toNat := by
  rw [settled_iff] at hs
  rw [shift_low_toNat, shift_high_toNat]
  omega

/-- A code word that begins with the settled byte is inside exactly if it is inside one byte on. -/
theorem shift_contains_iff {iv : Interval} (hs : iv.settled) (c : Word) (b : Byte) :
    iv.shift.Contains (shiftCode c b) ∧ topByte c = topByte iv.high ↔ iv.Contains c := by
  have hb := b.isLt
  rw [settled_iff] at hs
  rw [Interval.Contains, Interval.Contains, shift_low_toNat, shift_high_toNat, shiftCode_toNat, ← BitVec.toNat_inj,
    topByte_toNat, topByte_toNat]
  omega

/-- Four shifts drop every bit the bounds had. -/
theorem shift_four (iv : Interval) : Interval.shift^[4] iv = wholeInterval := by
  have hlow : (Interval.shift^[4] iv).low.toNat = 0 := by
    simp only [Function.iterate_succ_apply', Function.iterate_zero_apply, shift_low_toNat]
    omega
  have hhigh : (Interval.shift^[4] iv).high.toNat = 0xFFFFFFFF := by
    simp only [Function.iterate_succ_apply', Function.iterate_zero_apply, shift_high_toNat]
    omega
  exact congrArg₂ Interval.mk (BitVec.eq_of_toNat_eq hlow) (BitVec.eq_of_toNat_eq hhigh)

/-! ### `NormaliseE` (R94) -/

theorem normaliseE_not_settled {n : Nat} {iv : Interval} (h : ¬(Interval.shift^[n] iv).settled) :
    ¬(normaliseE n iv).2.settled := by
  induction n generalizing iv with
  | zero => exact h
  | succ n ih =>
    by_cases hs : iv.settled
    · rw [normaliseE_of_settled hs]
      exact ih h
    · rwa [normaliseE_of_open hs]

theorem normaliseE_four_not_settled (iv : Interval) : ¬(normaliseE 4 iv).2.settled :=
  normaliseE_not_settled (by rw [shift_four]; exact wholeInterval_open)

/-- Where the loop has ended by itself, a larger bound changes nothing. -/
theorem normaliseE_add {n : Nat} {iv : Interval} (h : ¬(normaliseE n iv).2.settled) (k : Nat) :
    normaliseE (n + k) iv = normaliseE n iv := by
  induction n generalizing iv with
  | zero => rw [Nat.zero_add]; exact normaliseE_of_open h k
  | succ n ih =>
    by_cases hs : iv.settled
    · rw [normaliseE_of_settled hs] at h
      rw [Nat.succ_add, normaliseE_of_settled hs, normaliseE_of_settled hs, ih h]
    · rw [normaliseE_of_open hs, normaliseE_of_open hs]

theorem normaliseE_ordered {iv : Interval} (h : iv.low.toNat ≤ iv.high.toNat) (n : Nat) :
    (normaliseE n iv).2.low.toNat ≤ (normaliseE n iv).2.high.toNat := by
  induction n generalizing iv with
  | zero => exact h
  | succ n ih =>
    by_cases hs : iv.settled
    · rw [normaliseE_of_settled hs]
      exact ih (shift_ordered hs h)
    · rwa [normaliseE_of_open hs]

theorem normaliseE_four_isOpen {iv : Interval} (h : iv.low.toNat ≤ iv.high.toNat) : (normaliseE 4 iv).2.Open := by
  have hordered := normaliseE_ordered h 4
  have hsettled := normaliseE_four_not_settled iv
  rw [settled_iff] at hsettled
  rw [Interval.Open, topByte_toNat, topByte_toNat]
  omega

/-- A decision leaves the interval open, whatever the probability. -/
theorem encodeStep_isOpen {iv : Interval} (h : iv.Open) (p : Prob) (bit : Bool) : (encodeStep iv p bit).2.Open :=
  normaliseE_four_isOpen (narrow_ordered h.lt p bit)

/-! ### `NormaliseD` (R94) -/

/-- With as many bytes in IN as the encoder emits, the decoder shifts exactly those in. -/
theorem normaliseD_of_append (n : Nat) (win : Window) {used : List Byte} (rest : List Byte)
    (h : used.length = (normaliseE n win.iv).1.length) :
    normaliseD n win (used ++ rest) = some (⟨(normaliseE n win.iv).2, used.foldl shiftCode win.code⟩, rest) := by
  induction n generalizing win used with
  | zero =>
    obtain rfl := List.length_eq_zero_iff.1 h
    rfl
  | succ n ih =>
    by_cases hs : win.iv.settled
    · rw [normaliseE_of_settled hs] at h ⊢
      obtain ⟨b, used, rfl⟩ := List.exists_cons_of_length_eq_add_one h
      rw [List.cons_append, normaliseD_of_settled hs]
      exact ih _ (Nat.succ.inj h)
    · rw [normaliseE_of_open hs] at h ⊢
      obtain rfl := List.length_eq_zero_iff.1 h
      exact normaliseD_of_open hs _ _

theorem normaliseD_of_few (n : Nat) (win : Window) {inp : List Byte}
    (h : inp.length < (normaliseE n win.iv).1.length) : normaliseD n win inp = none := by
  induction n generalizing win inp with
  | zero => exact absurd h (Nat.not_lt_zero _)
  | succ n ih =>
    by_cases hs : win.iv.settled
    · cases inp with
      | nil => exact normaliseD_starved hs n
      | cons b inp =>
        rw [normaliseE_of_settled hs] at h
        rw [normaliseD_of_settled hs]
        exact ih _ (Nat.lt_of_succ_lt_succ h)
    · rw [normaliseE_of_open hs] at h
      exact absurd h (Nat.not_lt_zero _)

/-- Shifting keeps the code window inside, whatever bytes come in. -/
theorem normaliseD_contains {n : Nat} {win win' : Window} {inp rest : List Byte}
    (h : normaliseD n win inp = some (win', rest)) (hc : win.iv.Contains win.code) : win'.iv.Contains win'.code := by
  induction n generalizing win inp with
  | zero =>
    obtain ⟨rfl, rfl⟩ := Prod.mk.inj (Option.some.inj h)
    exact hc
  | succ n ih =>
    by_cases hs : win.iv.settled
    · cases inp with
      | nil => rw [normaliseD_starved hs] at h; cases h
      | cons b inp =>
        rw [normaliseD_of_settled hs] at h
        exact ih h ((shift_contains_iff hs win.code b).2 hc).1
    · rw [normaliseD_of_open hs] at h
      obtain ⟨rfl, rfl⟩ := Prod.mk.inj (Option.some.inj h)
      exact hc

theorem foldl_shiftCode_toNat (used : List Byte) (c : Word) :
    (used.foldl shiftCode c).toNat = used.foldl (fun c b => (c * 256 + b.toNat) % 2 ^ 32) c.toNat :=
  (List.foldl_hom BitVec.toNat fun c b => by rw [shiftCode_eq_ofNat, BitVec.toNat_ofNat]).symm

/-- Settles O42: four shifts give the whole window, so the loop has ended by then; the decoder's loop tests the same
bounds. -/
theorem normaliseSettlesTheTopByte : Obligations.NormaliseSettlesTheTopByte := by
  refine ⟨fun iv => ⟨normaliseE_length 4 iv, normaliseE_four_not_settled iv, fun n hn => ?_, normaliseE_four_isOpen⟩,
    fun win inp => ⟨normaliseD_of_few 4 win, fun used rest hinp hused => ⟨used.foldl shiftCode win.code, ?_,
      foldl_shiftCode_toNat used win.code⟩⟩⟩
  · obtain ⟨k, rfl⟩ := Nat.exists_eq_add_of_le hn
    exact normaliseE_add (normaliseE_four_not_settled iv) k
  · rw [hinp]
    exact normaliseD_of_append 4 win rest hused

end Sys2Proof.Machine

/-! # The coder commands (45_coder.md) -/

namespace Sys2Proof.Machine

/-! ### Commands of one phase -/

theorem phaseCommand_of_phase {s : State} {q : Phase} (h0 : s.fault = 0) (hp : s.phase = q) (k : Result) :
    unlessFaulted s (require (s.phase = q) .seq s k) = k := by
  rw [unlessFaulted_of_zero h0, require_of hp]

theorem phaseCommand_of_other_phase {s : State} {q : Phase} (h0 : s.fault = 0) (hp : s.phase ≠ q) (k : Result) :
    unlessFaulted s (require (s.phase = q) .seq s k) = .next (s.faulted .seq) := by
  rw [unlessFaulted_of_zero h0, require_of_not hp, raise_eq]

theorem operandCommand_of_zero {s : State} {q : Phase} {p : Prob} (h0 : s.fault = 0) (hp : s.phase = q) (hz : p = 0)
    (k : Result) :
    unlessFaulted s (require (s.phase = q) .seq s (require (probInRange p) .operand s k)) =
      .next (s.faulted .operand) := by
  rw [phaseCommand_of_phase h0 hp, require_of_not (not_not_intro hz), raise_eq]

/-! ### The encoder's commands (R96, R97, R99) -/

/-- What `ESTART` leaves. -/
def State.encoderStarted (s : State) : State :=
  ({ s.startPass with elow := 0, ehigh := 0xFFFFFFFF, phase := .enc } : State).answer false 0

theorem exec_estart {s : State} (h0 : s.fault = 0) (hp : s.phase = .idle) :
    exec .estart s = .next s.encoderStarted := idleCommand_of_idle h0 hp _

theorem exec_ebit {s : State} {p : Prob} (h0 : s.fault = 0) (hp : s.phase = .enc) (hz : p ≠ 0) (bit : Bool) :
    exec (.ebit bit p) s = .next ((s.encodeBit bit p).answer false 0) := by
  rw [exec, execEbit, phaseCommand_of_phase h0 hp, require_of hz, respond_eq]

theorem exec_eflush {s : State} (h0 : s.fault = 0) (hp : s.phase = .enc) :
    exec .eflush s = .next (({ s.emit (wordBytes s.elow) with phase := .idle } : State).answer false 0) :=
  phaseCommand_of_phase h0 hp _

theorem wordBytes_eq (v : Word) :
    wordBytes v = [(v >>> 24).setWidth 8, (v >>> 16).setWidth 8, (v >>> 8).setWidth 8, v.setWidth 8] := by
  rw [BitVec.setWidth_ushiftRight_eq_extractLsb, BitVec.setWidth_ushiftRight_eq_extractLsb,
    BitVec.setWidth_ushiftRight_eq_extractLsb, BitVec.setWidth_eq_extractLsb' (by decide)]
  rfl

/-- Settles O43: each command is its effect behind the check of its phase, and `EBIT` checks its operand after that. -/
theorem encoderCommandsCodeBits : Obligations.EncoderCommandsCodeBits := by
  refine ⟨rfl, rfl, fun bit p => congrArg (fun w => [w]) (append_append_eq_or (0x31#8 ++ 0#7) (BitVec.ofBool bit) p),
    fun s h0 hp => exec_estart h0 hp, fun s bit p h0 hp hz => exec_ebit h0 hp hz bit, fun s h0 hp => ?_,
    fun s bit h0 hp => operandCommand_of_zero h0 hp rfl _, fun s h0 hp => phaseCommand_of_other_phase h0 hp _,
    fun s bit p h0 hp => ⟨phaseCommand_of_other_phase h0 hp _, phaseCommand_of_other_phase h0 hp _⟩⟩
  rw [exec_eflush h0 hp, wordBytes_eq]
  rfl

/-! ### The decoder's commands (R100, R101) -/

theorem exec_dstart {s : State} (h0 : s.fault = 0) (hp : s.phase = .idle) :
    exec .dstart s = orHold (startDecoder s) := idleCommand_of_idle h0 hp _

/-- What `DSTART` leaves when it has read the code word `c` and `rest` is what IN holds after it. -/
def State.decoderStarted (s : State) (c : Word) (rest : List Byte) : State :=
  ({ s.startPass with dlow := 0, dhigh := 0xFFFFFFFF, dcode := c, inp := rest, phase := .dec } : State).answer false 0

theorem startDecoder_of_append {s : State} {coded rest : List Byte} (hinp : s.inp = coded ++ rest)
    (hlen : coded.length = flushBytes) :
    startDecoder s = some (.next (s.decoderStarted (wordOfBytes coded) rest)) := by
  rw [startDecoder, takeBytes_eq_some.2 ⟨hinp, hlen⟩]
  rfl

theorem startDecoder_of_few {s : State} (h : s.inp.length < flushBytes) : startDecoder s = none := by
  rw [startDecoder, takeBytes_eq_none.2 h, Option.map_none]

theorem wordOfBytes_eq_foldl (bs : List Byte) : wordOfBytes bs = bs.foldl shiftCode 0 := rfl

theorem wordOfBytes_four (b0 b1 b2 b3 : Byte) : wordOfBytes [b0, b1, b2, b3] =
    BitVec.ofNat 32 (b0.toNat * 2 ^ 24 + b1.toNat * 2 ^ 16 + b2.toNat * 2 ^ 8 + b3.toNat) := by
  refine BitVec.eq_of_toNat_eq ?_
  rw [wordOfBytes_eq_foldl, foldl_shiftCode_toNat, BitVec.toNat_ofNat]
  simp only [List.foldl_cons, List.foldl_nil, BitVec.ofNat_eq_ofNat, BitVec.toNat_ofNat]
  omega

/-- The bit as the data of a response. -/
theorem ofBool_zeroExtend (bit : Bool) : (BitVec.ofBool bit).zeroExtend 32 = if bit then (1 : Word) else 0 := by
  cases bit <;> rfl

theorem exec_dbit {s : State} {p : Prob} (h0 : s.fault = 0) (hp : s.phase = .dec) (hz : p ≠ 0) :
    exec (.dbit p) s =
      orHold ((s.decodeBit p).map fun r => respond ((BitVec.ofBool r.1).zeroExtend 32) r.2) := by
  rw [exec, execDbit, phaseCommand_of_phase h0 hp, require_of hz]

/-- With as many bytes in IN as the encoder settles for the decoded bit, the decision completes and takes those. -/
theorem decodeBit_of_append {s : State} {p : Prob} {bit : Bool} {used rest : List Byte}
    (hbit : decodedBit s.decWindow p = bit) (hinp : s.inp = used ++ rest)
    (hlen : used.length = (encodeStep s.decWindow.iv p bit).1.length) :
    s.decodeBit p = some (bit, { s with
      dlow := (encodeStep s.decWindow.iv p bit).2.low, dhigh := (encodeStep s.decWindow.iv p bit).2.high,
      dcode := used.foldl shiftCode s.dcode, inp := rest }) := by
  subst hbit
  rw [State.decodeBit, decodeStep, hinp, normaliseD_of_append maxShifts
    { s.decWindow with iv := narrow s.decWindow.iv p (decodedBit s.decWindow p) } rest hlen]
  rfl

theorem decodeBit_of_few {s : State} {p : Prob}
    (h : s.inp.length < (encodeStep s.decWindow.iv p (decodedBit s.decWindow p)).1.length) :
    s.decodeBit p = none := by
  rw [State.decodeBit, decodeStep, normaliseD_of_few maxShifts
    { s.decWindow with iv := narrow s.decWindow.iv p (decodedBit s.decWindow p) } h]
  rfl

/-- Settles O44: `DSTART` is four turns of the code window, `DBIT` the comparison, then `NormaliseD` beside
`NormaliseE`. -/
theorem decoderCommandsDecodeBits : Obligations.DecoderCommandsDecodeBits := by
  refine ⟨rfl, fun p => congrArg (fun w => [w]) (append_eq_or (0x41#8 ++ 0#8) p),
    fun s b0 b1 b2 b3 rest h0 hp hinp => ?_, fun s h0 hp hfew => ?_,
    fun s p h0 hp hz => ⟨fun hfew => ?_, fun used rest hinp hused => ?_⟩,
    fun s h0 hp => operandCommand_of_zero h0 hp rfl _, fun s h0 hp => phaseCommand_of_other_phase h0 hp _,
    fun s p h0 hp => phaseCommand_of_other_phase h0 hp _⟩
  · rw [exec_dstart h0 hp, startDecoder_of_append (coded := [b0, b1, b2, b3]) hinp rfl, wordOfBytes_four]
    rfl
  · rw [exec_dstart h0 hp, startDecoder_of_few hfew]
    rfl
  · rw [exec_dbit h0 hp hz, decodeBit_of_few hfew]
    rfl
  · have hshift : shiftCode = fun c b => BitVec.ofNat 32 (c.toNat * 256 + b.toNat) :=
      funext fun c => funext fun b => shiftCode_eq_ofNat c b
    rw [exec_dbit h0 hp hz, decodeBit_of_append rfl hinp hused, Option.map_some, ofBool_zeroExtend, hshift]
    rfl

/-! ### The windows stay open (R26, R27, R105) -/

/-- The decoder's window between two decisions (R27). -/
def Window.Sound (win : Window) : Prop := win.iv.Open ∧ win.iv.Contains win.code

/-- Narrowing by the decoded bit keeps the code word inside, and so does shifting. -/
theorem decodeStep_sound {win win' : Window} {p : Prob} {inp rest : List Byte} {bit : Bool}
    (h : decodeStep win p inp = some (bit, win', rest)) (hwin : win.Sound) : win'.Sound := by
  obtain ⟨hopen, hcode⟩ := hwin
  obtain ⟨-, hiv, -⟩ := decodeStep_some h
  refine ⟨hiv ▸ encodeStep_isOpen hopen p bit, ?_⟩
  simp only [decodeStep, Option.map_eq_some_iff, Prod.exists, Prod.mk.injEq] at h
  obtain ⟨w, r, hn, -, rfl, -⟩ := h
  exact normaliseD_contains hn ((narrow_contains_iff hopen.lt p).2 ⟨hcode, rfl⟩)

theorem decodeBit_sound {s t : State} {p : Prob} {bit : Bool} (h : s.decodeBit p = some (bit, t))
    (hs : s.decWindow.Sound) : t.decWindow.Sound := by
  obtain ⟨win, rest, hstep, rfl⟩ := decodeBit_some h
  exact decodeStep_sound hstep hs

theorem encodeWalk_isOpen (P : Pred) (bits : List Bool) {s : State} (hs : s.encInterval.Open) :
    (s.encodeWalk P bits).encInterval.Open := by
  induction bits generalizing s with
  | nil => exact hs
  | cons bit bits ih => exact ih (encodeStep_isOpen hs (s.prediction P s.node) bit)

theorem decodeWalk_sound {P : Pred} {n : Nat} {s t : State} (h : State.decodeWalk P n s = some t)
    (hs : s.decWindow.Sound) : t.decWindow.Sound := by
  induction n generalizing s with
  | zero =>
    obtain rfl := Option.some.inj h
    exact hs
  | succ n ih =>
    obtain ⟨u, hu, ht⟩ := decodeWalk_succ_some h
    obtain ⟨bit, v, hv, rfl⟩ := decodeWalkStep_some hu
    refine ih ht ?_
    have hsound := decodeBit_sound hv hs
    exact hsound

/-- What `ENCB`'s loop leaves of the fields that decide whether a command is accepted. -/
theorem encodeWalk_keeps (P : Pred) (bits : List Bool) (s : State) : (s.encodeWalk P bits).fault = s.fault ∧
    (s.encodeWalk P bits).phase = s.phase ∧ (s.encodeWalk P bits).prv = s.prv := by
  obtain ⟨elow, ehigh, out, node, bitcnt, plast, pnode, p, h, -⟩ := encodeWalk_frame P bits s
  rw [h]
  exact ⟨rfl, rfl, rfl⟩

theorem decodeWalk_keeps {P : Pred} {n : Nat} {s t : State} (h : State.decodeWalk P n s = some t) :
    t.fault = s.fault ∧ t.phase = s.phase ∧ t.prv = s.prv ∧ t.out = s.out := by
  obtain ⟨dlow, dhigh, dcode, node, bitcnt, plast, pnode, p, used, ht, -, -⟩ := decodeWalk_frame P n h
  rw [ht]
  exact ⟨rfl, rfl, rfl, rfl⟩

/-- The registers of the pass that is active hold an open window (R26, R27). -/
def State.windowsOpen (s : State) : Prop := s.encoderOpen ∧ s.decoderOpen

theorem windowsOpen_of_no_pass {s : State} (he : s.phase ≠ .enc) (hd : s.phase ≠ .dec) : s.windowsOpen :=
  ⟨fun h => absurd h he, fun h => absurd h hd⟩

theorem windowsOpen_of_enc {s : State} (hp : s.phase = .enc) (h : s.encInterval.Open) : s.windowsOpen :=
  ⟨fun _ => h, fun hd => absurd (hp.symm.trans hd) nofun⟩

theorem windowsOpen_of_dec {s : State} (hp : s.phase = .dec) (h : s.decWindow.Sound) : s.windowsOpen :=
  ⟨fun he => absurd (hp.symm.trans he) nofun, fun _ => h⟩

theorem windowsOpen_of_refused_or_raised {s t : State} (hs : s.windowsOpen) (h : Refused s t ∨ Raised s t) :
    t.windowsOpen := by
  rcases h with ⟨-, rfl⟩ | ⟨-, c, rfl⟩
  · exact hs
  · exact hs

/-- Leaves a command's own outcome to show: a refusal and a fault touch neither window nor the phase. -/
theorem windowsOpen_of_outcome {s t : State} {own : Prop} (hs : s.windowsOpen)
    (h : Refused s t ∨ Raised s t ∨ own) (f : own → t.windowsOpen) : t.windowsOpen :=
  (or_assoc.2 h).elim (windowsOpen_of_refused_or_raised hs) f

theorem windowsOpen_of_writeHeader {s t : State} (hs : s.windowsOpen) (h : writeHeader s = .next t) :
    t.windowsOpen := by
  obtain ⟨bytes, d, -, rfl | ⟨m, rfl⟩⟩ := writeHeader_frame h
  · exact hs
  · exact hs

theorem windowsOpen_of_readHeader {s t : State} (hs : s.windowsOpen) (h : readHeader s = some (.next t)) :
    t.windowsOpen := by
  obtain ⟨used, rest, l, d, -, -, rfl | ⟨m, rfl⟩⟩ := readHeader_frame h
  · exact hs
  · exact hs

theorem windowsOpen_of_startDecoder {s t : State} (h : startDecoder s = some (.next t)) : t.windowsOpen := by
  obtain ⟨coded, rest, -, -, rfl⟩ := startDecoder_next h
  exact windowsOpen_of_dec rfl ⟨wholeInterval_isOpen, wholeInterval_contains _⟩

theorem windowsOpen_of_encodeBit {s : State} (hs : s.windowsOpen) (hp : s.phase = .enc) (bit : Bool) (p : Prob)
    (d : Word) : ((s.encodeBit bit p).answer false d).windowsOpen := by
  obtain ⟨hopen, -⟩ := hs
  refine windowsOpen_of_enc hp ?_
  have hstep := encodeStep_isOpen (iv := s.encInterval) (hopen hp) p bit
  exact hstep

theorem windowsOpen_of_encodeWalk {s : State} (hs : s.windowsOpen) (hp : s.phase = .enc) (P : Pred)
    (bits : List Bool) (d : Word) : ((s.encodeWalk P bits).endByte.answer false d).windowsOpen := by
  obtain ⟨hopen, -⟩ := hs
  obtain ⟨-, hphase, -⟩ := encodeWalk_keeps P bits s
  exact windowsOpen_of_enc (hphase.trans hp) (encodeWalk_isOpen P bits (s := s) (hopen hp))

theorem windowsOpen_of_decodeBit {s t : State} {p : Prob} {bit : Bool} (hs : s.windowsOpen) (hp : s.phase = .dec)
    (h : s.decodeBit p = some (bit, t)) (d : Word) : (t.answer false d).windowsOpen := by
  obtain ⟨-, hwindow⟩ := hs
  have hsound := decodeBit_sound h (hwindow hp)
  obtain ⟨win, rest, -, rfl⟩ := decodeBit_some h
  exact windowsOpen_of_dec hp hsound

theorem windowsOpen_of_decodeWalk {P : Pred} {n : Nat} {s t : State} (hs : s.windowsOpen) (hp : s.phase = .dec)
    (h : State.decodeWalk P n s = some t) (bytes : List Byte) (d : Word) :
    ((t.endByte.emit bytes).answer false d).windowsOpen := by
  obtain ⟨-, hwindow⟩ := hs
  have hsound := decodeWalk_sound h (hwindow hp)
  refine windowsOpen_of_dec ?_ hsound
  obtain ⟨-, hphase, -, -⟩ := decodeWalk_keeps h
  exact hphase.trans hp

/-- A decision keeps its window open; a pass begins with the whole window; the other commands leave the registers
alone, and no other command opens a pass of the coder. -/
theorem exec_keeps_windowsOpen {i : Instr} {s t : State} (hs : s.windowsOpen) (h : exec i s = .next t) :
    t.windowsOpen := by
  cases i with
  | ebit bit p =>
    exact windowsOpen_of_outcome hs (execEbit_next h) fun ⟨_, hp, _, e⟩ => e ▸ windowsOpen_of_encodeBit hs hp bit p 0
  | encb b =>
    exact windowsOpen_of_outcome hs (execEncb_next h) fun ⟨_, hp, _, _, e⟩ => e ▸ windowsOpen_of_encodeWalk hs hp _ _ 0
  | dbit p =>
    exact windowsOpen_of_outcome hs (execDbit_next h) fun ⟨_, hp, _, _, _, hd, e⟩ =>
      e ▸ windowsOpen_of_decodeBit hs hp hd _
  | decb =>
    exact windowsOpen_of_outcome hs (execDecb_next h) fun ⟨_, hp, _, _, _, hd, e⟩ =>
      e ▸ windowsOpen_of_decodeWalk hs hp hd _ _
  | estart =>
    exact windowsOpen_of_outcome hs (execEstart_next h) fun ⟨_, _, e⟩ => e ▸ windowsOpen_of_enc rfl wholeInterval_isOpen
  | dstart => exact windowsOpen_of_outcome hs (execDstart_next h) fun ⟨_, _, hd⟩ => windowsOpen_of_startDecoder hd
  | sreset => exact execSreset_next h ▸ windowsOpen_of_no_pass nofun nofun
  | stop =>
    exact windowsOpen_of_outcome hs (execStop_next h) fun ⟨_, _, e⟩ => e ▸ windowsOpen_of_no_pass nofun nofun
  | eflush =>
    exact windowsOpen_of_outcome hs (execEflush_next h) fun ⟨_, _, e⟩ => e ▸ windowsOpen_of_no_pass nofun nofun
  | sstart =>
    exact windowsOpen_of_outcome hs (execSstart_next h) fun ⟨_, _, _, _, e⟩ => e ▸ windowsOpen_of_no_pass nofun nofun
  | gstart =>
    exact windowsOpen_of_outcome hs (execGstart_next h) fun ⟨_, _, _, e⟩ => e ▸ windowsOpen_of_no_pass nofun nofun
  | hdrw => exact windowsOpen_of_outcome hs (execHdrw_next h) fun ⟨_, _, hw⟩ => windowsOpen_of_writeHeader hs hw
  | hdrr => exact windowsOpen_of_outcome hs (execHdrr_next h) fun ⟨_, _, hr⟩ => windowsOpen_of_readHeader hs hr
  | nop => exact windowsOpen_of_outcome hs (execNop_next h) fun ⟨_, e⟩ => e ▸ hs
  | rdr r => exact windowsOpen_of_outcome hs (execRdr_next h) fun ⟨_, _, e⟩ => e ▸ hs
  | vmclr => exact windowsOpen_of_outcome hs (execVmclr_next h) fun ⟨_, _, e⟩ => e ▸ hs
  | vmall => exact windowsOpen_of_outcome hs (execVmall_next h) fun ⟨_, _, e⟩ => e ▸ hs
  | vmark b => exact windowsOpen_of_outcome hs (execVmark_next h) fun ⟨_, _, e⟩ => e ▸ hs
  | setmask k ext => exact windowsOpen_of_outcome hs (execSetmask_next h) fun ⟨_, _, e⟩ => e ▸ hs
  | vmbuild => exact windowsOpen_of_outcome hs (execVmbuild_next h) fun ⟨_, _, e⟩ => e ▸ hs
  | vmfwd b => exact windowsOpen_of_outcome hs (execVmfwd_next h) fun ⟨_, _, e⟩ => e ▸ hs
  | vminv idx => exact windowsOpen_of_outcome hs (execVminv_next h) fun ⟨_, _, e⟩ => e ▸ hs
  | setlen hi8 ext => exact windowsOpen_of_outcome hs (execSetlen_next h) fun ⟨_, _, e⟩ => e ▸ hs
  | pinit => exact windowsOpen_of_outcome hs (execPinit_next h) fun ⟨_, _, _, _, e⟩ => e ▸ hs
  | ppred node => exact windowsOpen_of_outcome hs (execPpred_next h) fun ⟨_, _, _, _, e⟩ => e ▸ hs
  | pobs node bit => exact windowsOpen_of_outcome hs (execPobs_next h) fun ⟨_, _, _, _, _, e⟩ => e ▸ hs
  | btrst => exact windowsOpen_of_outcome hs (execBtrst_next h) fun ⟨_, _, e⟩ => e ▸ hs
  | btstep bit => exact windowsOpen_of_outcome hs (execBtstep_next h) fun ⟨_, _, _, e⟩ => e ▸ hs
  | trainb b => exact windowsOpen_of_outcome hs (execTrainb_next h) fun ⟨_, _, _, _, e⟩ => e ▸ hs
  | xent => exact windowsOpen_of_outcome hs (execXent_next h) fun ⟨_, _, _, e⟩ => e ▸ hs
  | genb => exact windowsOpen_of_outcome hs (execGenb_next h) fun ⟨_, _, e⟩ => e ▸ hs
  | sdist idx => exact windowsOpen_of_outcome hs (execSdist_next h) fun ⟨_, _, _, e⟩ => e ▸ hs
  | seed ext => exact windowsOpen_of_outcome hs (execSeed_next h) fun ⟨_, e⟩ => e ▸ hs

/-- Settles O47: the words taken off the port are no part of the windows; what is then executed keeps them open. -/
theorem coderWindowsStayOpen : Obligations.CoderWindowsStayOpen := by
  intro s t hs h
  rcases step_next h with ⟨i, rest, -, he⟩ | ⟨why, rest, -, hi⟩
  · exact exec_keeps_windowsOpen (s := { s with cmd := rest }) hs he
  · exact windowsOpen_of_refused_or_raised (s := { s with cmd := rest }) hs (illegalCommand_next hi)

end Sys2Proof.Machine

/-! # Decode of encode (R104)

The encoder's output is one stream: the bytes each decision settles, then the flush. At every decision the decoder holds
the encoder's interval, its code window is the next word of the stream that is left, and that word lies inside the
interval, because what the encoder writes from there on never leaves it. -/

namespace Sys2Proof.Machine

/-! ### The next word of a stream -/

theorem wordBytes_length (c : Word) : (wordBytes c).length = flushBytes := rfl

theorem wordBytes_injective {c c' : Word} (h : wordBytes c = wordBytes c') : c = c' := by
  have hc := c.isLt
  have hc' := c'.isLt
  simp only [wordBytes, List.cons.injEq, and_true, ← BitVec.toNat_inj, BitVec.extractLsb'_toNat,
    Nat.shiftRight_eq_div_pow] at h
  refine BitVec.eq_of_toNat_eq ?_
  omega

theorem wordBytes_append_inj {c c' : Word} {rest rest' : List Byte}
    (h : wordBytes c ++ rest = wordBytes c' ++ rest') : c = c' ∧ rest = rest' := by
  obtain ⟨hword, hrest⟩ := List.append_inj h rfl
  exact ⟨wordBytes_injective hword, hrest⟩

theorem wordOfBytes_wordBytes (c : Word) : wordOfBytes (wordBytes c) = c := by
  have hc := c.isLt
  rw [wordBytes, wordOfBytes_four]
  refine BitVec.eq_of_toNat_eq ?_
  simp only [BitVec.toNat_ofNat, BitVec.extractLsb'_toNat, Nat.shiftRight_eq_div_pow]
  omega

/-- Shifting a byte into the code window moves it one byte on along the stream. -/
theorem wordBytes_shiftCode (c : Word) (b : Byte) (rest : List Byte) :
    wordBytes c ++ b :: rest = topByte c :: (wordBytes (shiftCode c b) ++ rest) := by
  have hb := b.isLt
  have hbytes : wordBytes (shiftCode c b) = [c.extractLsb' 16 8, c.extractLsb' 8 8, c.extractLsb' 0 8, b] := by
    simp only [wordBytes, List.cons.injEq, and_true, ← BitVec.toNat_inj, BitVec.extractLsb'_toNat, shiftCode_toNat,
      Nat.shiftRight_eq_div_pow]
    omega
  rw [hbytes]
  rfl

theorem wordBytes_foldl_shiftCode (used : List Byte) (c : Word) (rest : List Byte) :
    (wordBytes c ++ (used ++ rest)).drop used.length = wordBytes (used.foldl shiftCode c) ++ rest := by
  induction used generalizing c with
  | nil => rfl
  | cons b used ih =>
    rw [List.cons_append, wordBytes_shiftCode, List.length_cons, List.drop_succ_cons, ih]
    rfl

/-- Any byte can stand before a code word. -/
theorem exists_shiftCode_eq (top : Byte) (c : Word) : ∃ (c' : Word) (b : Byte), shiftCode c' b = c ∧ topByte c' = top := by
  have hc := c.isLt
  have htop := top.isLt
  refine ⟨BitVec.ofNat 32 (top.toNat * 2 ^ 24 + c.toNat / 256), BitVec.ofNat 8 c.toNat, ?_, ?_⟩
  · refine BitVec.eq_of_toNat_eq ?_
    rw [shiftCode_toNat, BitVec.toNat_ofNat, BitVec.toNat_ofNat]
    omega
  · refine BitVec.eq_of_toNat_eq ?_
    rw [topByte_toNat, BitVec.toNat_ofNat]
    omega

/-! ### A stream inside an interval -/

/-- The stream begins with a word inside the interval. -/
def Interval.Reads (iv : Interval) (stream : List Byte) : Prop :=
  ∃ c rest, stream = wordBytes c ++ rest ∧ iv.Contains c

theorem reads_shift {iv : Interval} {stream : List Byte} (hs : iv.settled) (h : iv.shift.Reads stream) :
    iv.Reads (topByte iv.high :: stream) := by
  obtain ⟨c, rest, rfl, hc⟩ := h
  obtain ⟨c', b, rfl, htop⟩ := exists_shiftCode_eq (topByte iv.high) c
  exact ⟨c', b :: rest, by rw [wordBytes_shiftCode, htop], (shift_contains_iff hs c' b).1 ⟨hc, htop⟩⟩

theorem reads_normaliseE {n : Nat} {iv : Interval} {stream : List Byte} (h : (normaliseE n iv).2.Reads stream) :
    iv.Reads ((normaliseE n iv).1 ++ stream) := by
  induction n generalizing iv with
  | zero => exact h
  | succ n ih =>
    by_cases hs : iv.settled
    · rw [normaliseE_of_settled hs] at h ⊢
      exact reads_shift hs (ih h)
    · rwa [normaliseE_of_open hs] at h ⊢

theorem reads_of_narrow {iv : Interval} {p : Prob} {bit : Bool} {stream : List Byte} (hopen : iv.Open)
    (h : (narrow iv p bit).Reads stream) : iv.Reads stream := by
  obtain ⟨c, rest, hstream, hc⟩ := h
  obtain ⟨hin, -⟩ := (narrow_contains_iff hopen.lt p).1 hc
  exact ⟨c, rest, hstream, hin⟩

/-- What a decision writes, followed by a stream inside the interval it leaves, is inside the interval it began with. -/
theorem reads_encodeStep {iv : Interval} {p : Prob} {bit : Bool} {stream : List Byte} (hopen : iv.Open)
    (h : (encodeStep iv p bit).2.Reads stream) : iv.Reads ((encodeStep iv p bit).1 ++ stream) :=
  reads_of_narrow hopen (reads_normaliseE h)

/-! ### One decision of the decoder -/

/-- The decoder holds the interval and has the stream before it: its code window, then IN. -/
def State.Follows (d : State) (iv : Interval) (stream : List Byte) : Prop :=
  d.decWindow.iv = iv ∧ wordBytes d.dcode ++ d.inp = stream

/-- A decoder that follows the encoder up to a decision decodes the bit and follows it past the decision. -/
theorem decodeBit_of_follows {d : State} {iv : Interval} {p : Prob} {bit : Bool} {stream : List Byte}
    (hopen : iv.Open) (hreads : (encodeStep iv p bit).2.Reads stream)
    (hd : d.Follows iv ((encodeStep iv p bit).1 ++ stream)) :
    ∃ u, d.decodeBit p = some (bit, u) ∧ u.Follows (encodeStep iv p bit).2 stream := by
  obtain ⟨rfl, hstream⟩ := hd
  have hbit : decodedBit d.decWindow p = bit := by
    obtain ⟨c, rest, hnarrow, hc⟩ := reads_normaliseE hreads
    obtain ⟨rfl, -⟩ := wordBytes_append_inj (hstream.trans hnarrow)
    obtain ⟨-, hbit⟩ := (narrow_contains_iff hopen.lt p).1 hc
    exact hbit
  have hlen : (encodeStep d.decWindow.iv p bit).1.length ≤ d.inp.length := by
    obtain ⟨c, rest, rfl, -⟩ := hreads
    have hlength := congrArg List.length hstream
    simp only [List.length_append, wordBytes_length] at hlength
    omega
  have hused := List.length_take_of_le hlen
  have hinp := (List.take_append_drop (encodeStep d.decWindow.iv p bit).1.length d.inp).symm
  refine ⟨_, decodeBit_of_append hbit hinp hused, rfl, ?_⟩
  have hdrop := wordBytes_foldl_shiftCode (d.inp.take (encodeStep d.decWindow.iv p bit).1.length) d.dcode
    (d.inp.drop (encodeStep d.decWindow.iv p bit).1.length)
  rw [← hinp, hused, hstream, List.drop_left] at hdrop
  exact hdrop.symm

theorem decodeBit_keeps {s t : State} {p : Prob} {bit : Bool} (h : s.decodeBit p = some (bit, t)) :
    t.fault = s.fault ∧ t.phase = s.phase ∧ t.resp = s.resp ∧ t.node = s.node ∧ t.pstate = s.pstate := by
  obtain ⟨win, rest, -, rfl⟩ := decodeBit_some h
  exact ⟨rfl, rfl, rfl, rfl, rfl⟩

/-- `DSTART` takes the first word of IN into the code window (R100). -/
theorem exec_dstart_of_word {d : State} {c : Word} {rest : List Byte} (h0 : d.fault = 0) (hp : d.phase = .idle)
    (hinp : d.inp = wordBytes c ++ rest) : exec .dstart d = .next (d.decoderStarted c rest) := by
  rw [exec_dstart h0 hp, startDecoder_of_append hinp (wordBytes_length c), wordOfBytes_wordBytes]
  rfl

/-! ### Runs of commands -/

theorem execAll_cons {i : Instr} {s t : State} (h : exec i s = .next t) (is : List Instr) :
    execAll (i :: is) s = execAll is t := by
  rw [execAll, h, andThen]

theorem execAll_append {is : List Instr} {s t : State} (h : execAll is s = .next t) (js : List Instr) :
    execAll (is ++ js) s = execAll js t := by
  induction is generalizing s with
  | nil =>
    obtain rfl := Host.Outcome.next.inj h
    rfl
  | cons i is ih =>
    cases hi : exec i s with
    | next u =>
      rw [execAll_cons hi] at h
      rw [List.cons_append, execAll_cons hi, ih h]
    | fault f => rw [execAll, hi] at h; cases h
    | refused r => rw [execAll, hi] at h; cases h

theorem execAll_singleton (i : Instr) (s : State) : execAll [i] s = exec i s := by
  rw [execAll]
  cases exec i s <;> rfl

/-! ### A whole pass of decisions -/

/-- The bytes that decisions write from an interval on, with the flush after them (R97, R99). -/
def codeOf : Interval → List (Bool × Prob) → List Byte
  | iv, [] => wordBytes iv.low
  | iv, x :: xs => (encodeStep iv x.2 x.1).1 ++ codeOf (encodeStep iv x.2 x.1).2 xs

theorem codeOf_reads {iv : Interval} (hopen : iv.Open) (bits : List (Bool × Prob)) (tail : List Byte) :
    iv.Reads (codeOf iv bits ++ tail) := by
  induction bits generalizing iv with
  | nil => exact ⟨iv.low, tail, rfl, le_rfl, hopen.lt.le⟩
  | cons x xs ih =>
    rw [codeOf, List.append_assoc]
    exact reads_encodeStep hopen (ih (encodeStep_isOpen hopen x.2 x.1))

theorem execAll_ebits_eflush {bits : List (Bool × Prob)} (hbits : ∀ x ∈ bits, x.2 ≠ 0) {s : State}
    (h0 : s.fault = 0) (hp : s.phase = .enc) : ∃ t, execAll (ebits bits ++ [.eflush]) s = .next t ∧
      t.fault = 0 ∧ t.phase = .idle ∧ t.out = s.out ++ codeOf s.encInterval bits := by
  induction bits generalizing s with
  | nil => exact ⟨_, (execAll_singleton _ s).trans (exec_eflush h0 hp), h0, rfl, rfl⟩
  | cons x xs ih =>
    obtain ⟨hx, hxs⟩ := List.forall_mem_cons.1 hbits
    obtain ⟨t, hrun, ht0, htp, hout⟩ := ih hxs (s := (s.encodeBit x.1 x.2).answer false 0) h0 hp
    refine ⟨t, (execAll_cons (exec_ebit h0 hp hx x.1) _).trans hrun, ht0, htp, ?_⟩
    rw [hout, codeOf, ← List.append_assoc]
    rfl

theorem execAll_dbits {bits : List (Bool × Prob)} (hbits : ∀ x ∈ bits, x.2 ≠ 0) {iv : Interval} (hopen : iv.Open)
    {d : State} {tail : List Byte} (h0 : d.fault = 0) (hp : d.phase = .dec)
    (hd : d.Follows iv (codeOf iv bits ++ tail)) : ∃ u, execAll (bits.map fun x => .dbit x.2) d = .next u ∧
      u.fault = 0 ∧ u.inp = tail ∧ u.resp = d.resp ++ bits.map fun x => ⟨false, if x.1 then 1 else 0⟩ := by
  induction bits generalizing iv d with
  | nil =>
    obtain ⟨-, hstream⟩ := hd
    obtain ⟨-, htail⟩ := wordBytes_append_inj hstream
    exact ⟨d, rfl, h0, htail, by simp⟩
  | cons x xs ih =>
    obtain ⟨hx, hxs⟩ := List.forall_mem_cons.1 hbits
    have hopen' := encodeStep_isOpen hopen x.2 x.1
    rw [codeOf, List.append_assoc] at hd
    obtain ⟨v, hv, hfollows⟩ := decodeBit_of_follows hopen (codeOf_reads hopen' xs tail) hd
    have hexec : exec (.dbit x.2) d = .next (v.answer false (if x.1 then 1 else 0)) := by
      rw [exec_dbit h0 hp hx, hv, Option.map_some, ofBool_zeroExtend]
      rfl
    obtain ⟨hv0, hvp, hvresp, -, -⟩ := decodeBit_keeps hv
    obtain ⟨u, hrun, hu0, hinp, hresp⟩ := ih hxs hopen' (d := v.answer false (if x.1 then 1 else 0)) (hv0.trans h0)
      (hvp.trans hp) hfollows
    refine ⟨u, (execAll_cons hexec _).trans hrun, hu0, hinp, ?_⟩
    rw [hresp, State.answer_resp, hvresp, List.append_assoc]
    rfl

/-- Settles O48: the decisions' code is inside the whole window, and the decoder follows it from `DSTART` to the
flush. -/
theorem decodeInvertsEncode : Obligations.DecodeInvertsEncode := by
  intro bits s d hbits h0 hp hd0 hdp
  obtain ⟨t, hrun, ht0, htp, hout⟩ := execAll_ebits_eflush hbits (s := s.encoderStarted) h0 rfl
  refine ⟨t, codeOf wholeInterval bits, (execAll_cons (exec_estart h0 hp) _).trans hrun, ht0, htp, hout,
    fun tail hinp => ?_⟩
  obtain ⟨c, rest, hstream, -⟩ := codeOf_reads wholeInterval_isOpen bits tail
  have hstart := exec_dstart_of_word hd0 hdp (hinp.trans hstream)
  obtain ⟨u, hdec, hu0, hutail, hresp⟩ := execAll_dbits hbits wholeInterval_isOpen (d := d.decoderStarted c rest)
    hd0 rfl ⟨rfl, hstream.symm⟩
  refine ⟨u, (execAll_cons hstart _).trans hdec, hu0, hutail, ?_⟩
  rw [hresp, State.decoderStarted, State.answer_resp, List.append_assoc]
  rfl

end Sys2Proof.Machine

/-! # Decompress of compress (R108) -/

namespace Sys2Proof.Machine

/-! ### The walk of one byte, on both sides -/

/-- The bytes `ENCB`'s loop writes (R98). -/
def walkBytes (P : Pred) : State → List Bool → List Byte
  | _, [] => []
  | s, bit :: bits =>
    (encodeStep s.encInterval (s.prediction P s.node) bit).1 ++ walkBytes P (s.encodeWalkStep P bit) bits

theorem encodeWalk_out (P : Pred) (bits : List Bool) (s : State) :
    (s.encodeWalk P bits).out = s.out ++ walkBytes P s bits := by
  induction bits generalizing s with
  | nil => exact (List.append_nil s.out).symm
  | cons bit bits ih =>
    rw [walkBytes, ← List.append_assoc]
    exact ih (s.encodeWalkStep P bit)

theorem encodeWalkStep_isOpen (P : Pred) {s : State} (hopen : s.encInterval.Open) (bit : Bool) :
    (s.encodeWalkStep P bit).encInterval.Open := encodeWalk_isOpen P [bit] hopen

theorem walkBytes_reads {P : Pred} {bits : List Bool} {s : State} {stream : List Byte} (hopen : s.encInterval.Open)
    (h : (s.encodeWalk P bits).encInterval.Reads stream) : s.encInterval.Reads (walkBytes P s bits ++ stream) := by
  induction bits generalizing s with
  | nil => exact h
  | cons bit bits ih =>
    rw [walkBytes, List.append_assoc]
    exact reads_encodeStep hopen (ih (encodeWalkStep_isOpen P hopen bit) h)

/-- The decoder follows the encoder's interval along the stream, at the same node and with the same predictor. -/
def State.Mirrors (d s : State) (stream : List Byte) : Prop :=
  d.Follows s.encInterval stream ∧ d.node = s.node ∧ d.pstate = s.pstate

theorem decodeWalkStep_of_mirrors {P : Pred} {s d : State} {bit : Bool} {stream : List Byte}
    (hopen : s.encInterval.Open) (hreads : (s.encodeWalkStep P bit).encInterval.Reads stream)
    (hd : d.Mirrors s ((encodeStep s.encInterval (s.prediction P s.node) bit).1 ++ stream)) :
    ∃ u, d.decodeWalkStep P = some u ∧ u.Mirrors (s.encodeWalkStep P bit) stream := by
  obtain ⟨hfollows, hnode, hpstate⟩ := hd
  have hp : d.prediction P d.node = s.prediction P s.node := by rw [State.prediction, State.prediction, hnode, hpstate]
  obtain ⟨v, hv, hnext⟩ := decodeBit_of_follows (d := d.latch (s.prediction P s.node) s.node) hopen hreads hfollows
  obtain ⟨-, -, -, hvnode, hvpstate⟩ := decodeBit_keeps hv
  refine ⟨(v.treeStep bit).learn P s.node bit (s.prediction P s.node), ?_, hnext, ?_, ?_⟩
  · rw [State.decodeWalkStep, hp, hnode, hv]
    rfl
  · simp [State.encodeWalkStep, hvnode, hnode]
  · simp [State.encodeWalkStep, hvpstate, hpstate]

theorem decodeWalk_of_mirrors {P : Pred} {bits : List Bool} {s d : State} {stream : List Byte}
    (hopen : s.encInterval.Open) (hreads : (s.encodeWalk P bits).encInterval.Reads stream)
    (hd : d.Mirrors s (walkBytes P s bits ++ stream)) :
    ∃ u, State.decodeWalk P bits.length d = some u ∧ u.Mirrors (s.encodeWalk P bits) stream := by
  induction bits generalizing s d with
  | nil => exact ⟨d, rfl, hd⟩
  | cons bit bits ih =>
    have hopen' := encodeWalkStep_isOpen P hopen bit
    rw [walkBytes, List.append_assoc] at hd
    obtain ⟨v, hv, hmirrors⟩ := decodeWalkStep_of_mirrors hopen (walkBytes_reads hopen' hreads) hd
    obtain ⟨u, hu, hlast⟩ := ih hopen' hreads hmirrors
    exact ⟨u, by rw [List.length_cons, State.decodeWalk, hv, Option.bind_some, hu], hlast⟩

/-! ### The byte a walk spells (R77) -/

/-- The node after the bits of a walk, first decision first. -/
def walkNode (node : Node) (bits : List Bool) : Node :=
  bits.foldl (fun node bit => 2 * node + (BitVec.ofBool bit).zeroExtend 9) node

theorem encodeWalk_node (P : Pred) (bits : List Bool) (s : State) :
    (s.encodeWalk P bits).node = walkNode s.node bits := by
  induction bits generalizing s with
  | nil => rfl
  | cons bit bits ih => exact ih (s.encodeWalkStep P bit)

theorem length_byteBits (b : Byte) : (byteBits b).length = 8 := rfl

theorem walkNode_byteBits (b : Byte) : (walkNode 1 (byteBits b)).extractLsb' 0 8 = b := by
  revert b
  decide

/-! ### `ENCB` and `DECB` (R98, R102) -/

/-- What `ENCB` in `ENC` and `DECB` in `DEC` ask of the block. -/
structure State.ByteReady (s : State) (q : Phase) : Prop where
  fault : s.fault = 0
  phase : s.phase = q
  prv : s.prv = true
  start : s.atByteStart

theorem byteCommand_of_ready {s : State} {q : Phase} (hs : s.ByteReady q) (k : Result) :
    unlessFaulted s (require (s.phase = q) .seq s (require (s.prv = true) .seq s (require s.atByteStart .seq s k))) =
      k := by
  rw [phaseCommand_of_phase hs.fault hs.phase, require_of hs.prv, require_of hs.start]

theorem byteCommand_of_not_ready {s : State} {q : Phase} (h0 : s.fault = 0)
    (h : s.phase ≠ q ∨ s.prv = false ∨ s.node ≠ 1 ∨ s.bitcnt ≠ 0) (k : Result) :
    unlessFaulted s (require (s.phase = q) .seq s (require (s.prv = true) .seq s (require s.atByteStart .seq s k))) =
      .next (s.faulted .seq) := by
  rcases h with hphase | hprv | hstart
  · exact phaseCommand_of_other_phase h0 hphase _
  · rw [unlessFaulted_of_zero h0]
    exact require_seq_of_seq fun _ => require_flag_of_false hprv s _
  · rw [unlessFaulted_of_zero h0]
    refine require_seq_of_seq fun _ => require_seq_of_seq fun _ => ?_
    rw [require_of_not (by rw [State.atByteStart]; tauto), raise_eq]

/-- What `ENCB b` leaves. -/
def State.byteEncoded (s : State) (b : Byte) : State :=
  (s.encodeWalk Config.pred (byteBits b)).endByte.answer false 0

/-- What `DECB` leaves when its loop has ended in `u`. -/
def State.byteDecoded (u : State) : State :=
  (u.endByte.emit [walkedByte u]).answer false ((walkedByte u).zeroExtend 32)

theorem exec_encb {s : State} (hs : s.ByteReady .enc) (b : Byte) : exec (.encb b) s = .next (s.byteEncoded b) := by
  rw [exec, execEncb, execEncbWith, byteCommand_of_ready hs]
  rfl

theorem exec_decb {d : State} (hd : d.ByteReady .dec) :
    exec .decb d = orHold ((State.decodeWalk Config.pred 8 d).map fun u => .next u.byteDecoded) := by
  rw [exec, execDecb, execDecbWith, byteCommand_of_ready hd]
  rfl

theorem State.ByteReady.byteEncoded {s : State} (hs : s.ByteReady .enc) (b : Byte) :
    (s.byteEncoded b).ByteReady .enc := by
  obtain ⟨hfault, hphase, hprv⟩ := encodeWalk_keeps Config.pred (byteBits b) s
  exact ⟨hfault.trans hs.fault, hphase.trans hs.phase, hprv.trans hs.prv, rfl, rfl⟩

theorem State.ByteReady.byteDecoded {d u : State} (hd : d.ByteReady .dec)
    (h : State.decodeWalk Config.pred 8 d = some u) :
    u.byteDecoded.ByteReady .dec := by
  obtain ⟨hfault, hphase, hprv, -⟩ := decodeWalk_keeps h
  exact ⟨hfault.trans hd.fault, hphase.trans hd.phase, hprv.trans hd.prv, rfl, rfl⟩

theorem endByte_answer_encInterval (t : State) (err : Bool) (data : Word) :
    (t.endByte.answer err data).encInterval = t.encInterval := rfl

theorem byteEncoded_encInterval (s : State) (b : Byte) :
    (s.byteEncoded b).encInterval = (s.encodeWalk Config.pred (byteBits b)).encInterval :=
  endByte_answer_encInterval _ _ _

/-- The end of a byte resets the walk on both sides. -/
theorem mirrors_endByte {t u : State} {stream : List Byte} (h : u.Mirrors t stream) :
    u.byteDecoded.Mirrors (t.endByte.answer false 0) stream := by
  obtain ⟨hfollows, -, hpstate⟩ := h
  exact ⟨hfollows, rfl, hpstate⟩

theorem byteEncoded_isOpen {s : State} (hopen : s.encInterval.Open) (b : Byte) :
    (s.byteEncoded b).encInterval.Open := by
  rw [byteEncoded_encInterval]
  exact encodeWalk_isOpen Config.pred (byteBits b) hopen

/-! ### A whole pass of bytes -/

/-- The bytes that `ENCB` writes for a payload, with the flush after them. -/
def payloadCode : State → List Byte → List Byte
  | s, [] => wordBytes s.elow
  | s, b :: bs => walkBytes Config.pred s (byteBits b) ++ payloadCode (s.byteEncoded b) bs

theorem payloadCode_reads {s : State} (hopen : s.encInterval.Open) (payload : List Byte) :
    s.encInterval.Reads (payloadCode s payload) := by
  induction payload generalizing s with
  | nil => exact ⟨s.elow, [], (List.append_nil _).symm, le_rfl, hopen.lt.le⟩
  | cons b bs ih =>
    have hrest := ih (byteEncoded_isOpen hopen b)
    rw [byteEncoded_encInterval] at hrest
    exact walkBytes_reads hopen hrest

theorem execAll_encs_eflush {s : State} (hs : s.ByteReady .enc) (payload : List Byte) :
    ∃ t, execAll (encs payload ++ [.eflush]) s = .next t ∧ t.fault = 0 ∧ t.out = s.out ++ payloadCode s payload := by
  induction payload generalizing s with
  | nil => exact ⟨_, (execAll_singleton _ s).trans (exec_eflush hs.fault hs.phase), hs.fault, rfl⟩
  | cons b bs ih =>
    obtain ⟨t, hrun, ht0, hout⟩ := ih (hs.byteEncoded b)
    refine ⟨t, (execAll_cons (exec_encb hs b) _).trans hrun, ht0, ?_⟩
    rw [hout, payloadCode, ← List.append_assoc, ← encodeWalk_out]
    rfl

theorem exec_stop_of_dec {d : State} (h0 : d.fault = 0) (hp : d.phase = .dec) :
    exec .stop d = .next (({ d with phase := .idle } : State).answer false 0) := by
  rw [exec, execStop, unlessFaulted_of_zero h0, require_of (.inl hp), respond_eq]

/-- `DECB` on a decoder that mirrors the encoder at the start of a byte gives the byte, and mirrors the encoder after it. -/
theorem exec_decb_of_mirrors {s d : State} {b : Byte} {stream : List Byte} (hs : s.ByteReady .enc)
    (hopen : s.encInterval.Open) (hd : d.ByteReady .dec) (hreads : (s.byteEncoded b).encInterval.Reads stream)
    (hmirrors : d.Mirrors s (walkBytes Config.pred s (byteBits b) ++ stream)) :
    ∃ v : State, exec .decb d = .next v ∧ v.ByteReady .dec ∧ v.Mirrors (s.byteEncoded b) stream ∧
      v.out = d.out ++ [b] := by
  rw [byteEncoded_encInterval] at hreads
  obtain ⟨u, hu, hlast⟩ := decodeWalk_of_mirrors hopen hreads hmirrors
  rw [length_byteBits] at hu
  have hbyte : walkedByte u = b := by
    obtain ⟨hstart, -⟩ := hs.start
    obtain ⟨-, hnode, -⟩ := hlast
    rw [walkedByte, hnode, encodeWalk_node, hstart, walkNode_byteBits]
  have hexec : exec .decb d = .next u.byteDecoded := by
    rw [exec_decb hd, hu]
    rfl
  refine ⟨u.byteDecoded, hexec, hd.byteDecoded hu, mirrors_endByte hlast, ?_⟩
  obtain ⟨-, -, -, hout⟩ := decodeWalk_keeps hu
  rw [State.byteDecoded, State.answer_out, State.emit_out, State.endByte_out, hout, hbyte]

theorem execAll_decs_stop {s d : State} (hs : s.ByteReady .enc) (hopen : s.encInterval.Open) (hd : d.ByteReady .dec)
    {payload : List Byte} (hmirrors : d.Mirrors s (payloadCode s payload)) :
    ∃ u, execAll (decs payload.length ++ [.stop]) d = .next u ∧ u.fault = 0 ∧ u.out = d.out ++ payload ∧
      u.inp = [] := by
  induction payload generalizing s d with
  | nil =>
    obtain ⟨⟨-, hstream⟩, -⟩ := hmirrors
    obtain ⟨-, hinp⟩ := wordBytes_append_inj (hstream.trans (List.append_nil _).symm)
    exact ⟨_, (execAll_singleton _ d).trans (exec_stop_of_dec hd.fault hd.phase), hd.fault,
      (List.append_nil d.out).symm, hinp⟩
  | cons b bs ih =>
    have hopen' := byteEncoded_isOpen hopen b
    obtain ⟨v, hv, hready, hnext, hvout⟩ := exec_decb_of_mirrors hs hopen hd (payloadCode_reads hopen' bs) hmirrors
    obtain ⟨u, hrun, hu0, hout, hinp⟩ := ih (hs.byteEncoded b) hopen' hready hnext
    refine ⟨u, (execAll_cons hv _).trans hrun, hu0, ?_, hinp⟩
    rw [hout, hvout, List.append_assoc, List.singleton_append]

/-! ### Before the pass: the vocabulary, the header and the predictor -/

theorem lenOperand_setLength (n : Len) : lenOperand (n.extractLsb' 32 8) (n.extractLsb' 0 32) = n := by
  rw [lenOperand, append_eq_ofNat]
  refine BitVec.eq_of_toNat_eq ?_
  have hn := n.isLt
  simp only [BitVec.toNat_ofNat, BitVec.extractLsb'_toNat, Nat.shiftRight_eq_div_pow]
  omega

theorem exec_setLength {s : State} (h0 : s.fault = 0) (hp : s.phase = .idle) (n : Len) :
    exec (setLength n) s = .next (({ s with len := n } : State).answer false 0) := by
  rw [setLength, exec, execSetlen, idleCommand_of_idle h0 hp, lenOperand_setLength, respond_eq]

/-- A scan of bytes marks each of them and keeps the marks there were. -/
theorem execAll_vscan (bytes : List Byte) {s : State} (h0 : s.fault = 0) (hp : s.phase = .idle) :
    ∃ t, execAll (vscan bytes) s = .next t ∧ t.fault = 0 ∧ t.phase = .idle ∧ t.out = s.out ∧
      ∀ v, (s.vmask.getLsbD v.toNat = true ∨ v ∈ bytes) → t.vmask.getLsbD v.toNat = true := by
  induction bytes generalizing s with
  | nil => exact ⟨s, rfl, h0, hp, rfl, fun v hv => hv.resolve_right List.not_mem_nil⟩
  | cons b bs ih =>
    have hmark : exec (.vmark b) s =
        .next (({ s with vmask := markValue s.vmask b } : State).maskChanged.answer false 0) :=
      idleCommand_of_idle h0 hp _
    obtain ⟨t, hrun, ht0, htp, hout, hmarked⟩ := ih
      (s := ({ s with vmask := markValue s.vmask b } : State).maskChanged.answer false 0) h0 hp
    refine ⟨t, (execAll_cons hmark _).trans hrun, ht0, htp, hout, fun v hv => hmarked v ?_⟩
    rw [State.answer_vmask, State.maskChanged_vmask, markValue_getLsbD, Bool.or_eq_true, beq_iff_eq,
      BitVec.toNat_inj]
    rw [List.mem_cons] at hv
    tauto

/-- The commands ahead of the header: a long payload is scanned for its vocabulary (R106). -/
def scanCommands (payload : List Byte) : List Instr :=
  if bitmapThreshold ≤ payload.length then .vmclr :: vscan payload else []

theorem compressCommands_eq {payload : List Byte} (h : payload.length ≠ 0) : compressCommands payload =
    scanCommands payload ++ setLength (BitVec.ofNat 40 payload.length) :: .hdrw :: .pinit :: .estart ::
      (encs payload ++ [.eflush]) := by
  rw [compressCommands]
  simp only [if_neg h, scanCommands, List.append_assoc, List.cons_append, List.nil_append]

theorem execAll_scanCommands (payload : List Byte) {s : State} (h0 : s.fault = 0) (hp : s.phase = .idle) :
    ∃ t, execAll (scanCommands payload) s = .next t ∧ t.fault = 0 ∧ t.phase = .idle ∧ t.out = s.out ∧
      (bitmapThreshold ≤ payload.length → ∀ b ∈ payload, t.vmask.getLsbD b.toNat = true) := by
  by_cases hlong : bitmapThreshold ≤ payload.length
  · have hclear : exec .vmclr s = .next (({ s with vmask := 0 } : State).maskChanged.answer false 0) :=
      idleCommand_of_idle h0 hp _
    obtain ⟨t, hrun, ht0, htp, hout, hmarked⟩ := execAll_vscan payload
      (s := ({ s with vmask := 0 } : State).maskChanged.answer false 0) h0 hp
    refine ⟨t, ?_, ht0, htp, hout, fun _ b hb => hmarked b (.inr hb)⟩
    rw [scanCommands, if_pos hlong, execAll_cons hclear, hrun]
  · exact ⟨s, by rw [scanCommands, if_neg hlong]; rfl, h0, hp, rfl, fun h => absurd h hlong⟩

theorem vsize_pos_of_present {s : State} (h : s.mapMatches) {v : Byte} (hv : s.vmask.getLsbD v.toNat = true) :
    1 ≤ s.vsize.toNat := by
  rw [vsize_of_mapMatches h]
  exact Nat.one_le_of_lt (rank_lt_rank hv v.isLt)

/-- `HDRW` at a positive length leaves a valid map of a non-empty vocabulary: all values below the threshold, from it on
the mask, which then has to hold one. -/
theorem exec_hdrw_of_nonempty {s : State} (h0 : s.fault = 0) (hp : s.phase = .idle) (hlen : s.len ≠ 0)
    (hmask : bitmapThreshold ≤ s.len.toNat → ∃ v : Byte, s.vmask.getLsbD v.toNat = true) :
    ∃ (t : State) (header : List Byte), exec .hdrw s = .next t ∧ t.out = s.out ++ header ∧ t.fault = 0 ∧
      t.phase = .idle ∧ t.vmv = true ∧ 1 ≤ t.vsize.toNat := by
  rw [exec_hdrw h0 hp]
  by_cases hshort : s.len.toNat < bitmapThreshold
  · refine ⟨_, _, writeHeader_short hlen hshort, rfl, h0, hp, rfl, ?_⟩
    refine vsize_pos_of_present (v := 0) (buildMap_answer_mapMatches _ 1) ?_
    rw [State.answer_vmask, State.buildMap_vmask, BitVec.getLsbD_allOnes]
    rfl
  · have hlong := not_lt.1 hshort
    obtain ⟨v, hv⟩ := hmask hlong
    exact ⟨_, _, writeHeader_mapped hlong, rfl, h0, hp, rfl,
      vsize_pos_of_present (v := v) (buildMap_answer_mapMatches _ 2) hv⟩

theorem exec_hdrr_keeps {d e : State} (h0 : d.fault = 0) (hp : d.phase = .idle) (h : exec .hdrr d = .next e) :
    e.fault = 0 ∧ e.phase = .idle := by
  rw [exec_hdrr h0 hp] at h
  obtain ⟨used, rest, l, data, -, -, rfl | ⟨m, rfl⟩⟩ := readHeader_frame (orHold_next h)
  · exact ⟨h0, hp⟩
  · exact ⟨h0, hp⟩

/-- What `PINIT` leaves (R86). -/
def State.predictorStarted (s : State) : State :=
  ({ s with pstate := Config.pred.init s.vmask, prv := true, plv := false } : State).answer false 0

theorem exec_pinit {s : State} (h0 : s.fault = 0) (hp : s.phase = .idle) (hv : s.vmv = true)
    (hsize : 1 ≤ s.vsize.toNat) : exec .pinit s = .next s.predictorStarted := by
  rw [exec, execPinit, execPinitWith, idleCommand_of_idle h0 hp, require_of hv, require_of hsize]
  rfl

/-! ### The two procedures (R106, R107) -/

/-- The state in which the first `ENCB` runs, when `t` is what `HDRW` left. -/
def State.encoderPrepared (t : State) : State := t.predictorStarted.encoderStarted

theorem encoderPrepared_ready {t : State} (h0 : t.fault = 0) : t.encoderPrepared.ByteReady .enc :=
  ⟨h0, rfl, rfl, rfl, rfl⟩

theorem encoderPrepared_isOpen (t : State) : t.encoderPrepared.encInterval.Open := wholeInterval_isOpen

/-- Compression from `PINIT` on. -/
theorem execAll_encodePass {t : State} (h0 : t.fault = 0) (hp : t.phase = .idle) (hv : t.vmv = true)
    (hsize : 1 ≤ t.vsize.toNat) (payload : List Byte) :
    ∃ u, execAll (.pinit :: .estart :: (encs payload ++ [.eflush])) t = .next u ∧ u.fault = 0 ∧
      u.out = t.out ++ payloadCode t.encoderPrepared payload := by
  obtain ⟨u, hrun, hu0, hout⟩ := execAll_encs_eflush (encoderPrepared_ready h0) payload
  refine ⟨u, ?_, hu0, hout⟩
  rw [execAll_cons (exec_pinit h0 hp hv hsize), execAll_cons (exec_estart (s := t.predictorStarted) h0 hp)]
  exact hrun

/-- Decompression of what that compression wrote, on a block with the same vocabulary. -/
theorem execAll_decodePass {t e : State} (ht0 : t.fault = 0) (h0 : e.fault = 0) (hp : e.phase = .idle)
    (hv : e.vmv = true) (hsize : 1 ≤ e.vsize.toNat) (hmask : e.vmask = t.vmask) {payload : List Byte}
    (hinp : e.inp = payloadCode t.encoderPrepared payload) :
    ∃ u, execAll (decompressCommands payload.length) e = .next u ∧ u.fault = 0 ∧ u.out = e.out ++ payload ∧
      u.inp = [] := by
  have hopen := encoderPrepared_isOpen t
  obtain ⟨c, rest, hstream, -⟩ := payloadCode_reads hopen payload
  have hstart : exec .dstart e.predictorStarted = .next (e.predictorStarted.decoderStarted c rest) :=
    exec_dstart_of_word h0 hp (hinp.trans hstream)
  have hmirrors : (e.predictorStarted.decoderStarted c rest).Mirrors t.encoderPrepared
      (payloadCode t.encoderPrepared payload) := ⟨⟨rfl, hstream.symm⟩, rfl, congrArg Config.pred.init hmask⟩
  have hready : (e.predictorStarted.decoderStarted c rest).ByteReady .dec := ⟨h0, rfl, rfl, rfl, rfl⟩
  obtain ⟨u, hrun, hu⟩ := execAll_decs_stop (encoderPrepared_ready ht0) hopen hready hmirrors
  refine ⟨u, ?_, hu⟩
  change execAll (.pinit :: .dstart :: (decs payload.length ++ [.stop])) e = _
  rw [execAll_cons (exec_pinit h0 hp hv hsize), execAll_cons hstart, hrun]

/-- Settles O49: `HDRR` gives the decoder the encoder's vocabulary, so both predictors start alike, and the decoder
mirrors the encoder byte by byte. -/
theorem decompressInvertsCompress : Obligations.DecompressInvertsCompress := by
  intro payload hpos hmax
  have hn : (BitVec.ofNat 40 payload.length).toNat = payload.length := by
    rw [BitVec.toNat_ofNat]
    exact Nat.mod_eq_of_lt (by omega)
  obtain ⟨r, hscan, hr0, hrp, hrout, hmarked⟩ := execAll_scanCommands payload (s := State.reset) rfl rfl
  have hlength := exec_setLength hr0 hrp (BitVec.ofNat 40 payload.length)
  generalize hs : ({ r with len := BitVec.ofNat 40 payload.length } : State).answer false 0 = s at hlength
  have hslen : s.len.toNat = payload.length := by rw [← hs]; exact hn
  have hslen0 : s.len ≠ 0 := by rintro hzero; simp [hzero] at hslen; omega
  have hs0 : s.fault = 0 := by rw [← hs]; exact hr0
  have hsp : s.phase = .idle := by rw [← hs]; exact hrp
  have hsout : s.out = [] := by rw [← hs]; exact hrout
  obtain ⟨t, header, hhdrw, htout, ht0, htp, htv, htsize⟩ := exec_hdrw_of_nonempty hs0 hsp hslen0 fun hlong =>
    ⟨payload[0], by rw [← hs]; exact hmarked (hslen ▸ hlong) _ (List.getElem_mem hpos)⟩
  obtain ⟨u, hencode, hu0, huout⟩ := execAll_encodePass ht0 htp htv htsize payload
  rw [htout, hsout, List.nil_append] at huout
  obtain ⟨e, hhdrr, heinp, helen, -, hev, -, heout, hvocabulary, -⟩ := hdrrInvertsHdrw s t
    { State.reset with inp := u.out } header (payloadCode t.encoderPrepared payload) hs0 hsp hhdrw htout rfl rfl huout
  obtain ⟨he0, hep⟩ := exec_hdrr_keeps rfl rfl hhdrr
  obtain ⟨hemask, hesize, -, -⟩ := hvocabulary hslen0
  have helength : e.len.toNat = payload.length := by rw [helen, hslen]
  refine ⟨u, ?_, hu0, e, hhdrr, he0, helength, ?_⟩
  · rw [compressCommands_eq (by omega), execAll_append hscan, execAll_cons hlength, execAll_cons hhdrw, hencode]
  · rw [helength]
    obtain ⟨v, hdecode, hv0, hvout, hvinp⟩ := execAll_decodePass ht0 he0 hep (hev.trans htv) (hesize ▸ htsize) hemask
      heinp
    exact ⟨v, hdecode, hv0, hvout.trans (by rw [heout]; rfl), hvinp⟩

end Sys2Proof.Machine

/-! # `ENCB` and `DECB` as their primitive commands (R98, R102)

The primitives leave the state of the composite's loop, but for what they add on their own: a response each, and `PLV`,
which `PPRED` sets and `POBS` clears. -/

namespace Sys2Proof.Machine

/-! ### What the primitives add -/

/-- The state with other responses given and another `PLV`. -/
def State.withLog (s : State) (plv : Bool) (resp : List Response) : State := { s with plv := plv, resp := resp }

theorem withLog_lastData (s : State) (plv : Bool) (resp : List Response) (r : Response) :
    (s.withLog plv (resp ++ [r])).lastData = r.data := by simp [State.lastData, State.withLog]

/-- Neither loop reads the responses or `PLV`. -/
theorem encodeWalk_withLog (P : Pred) (bits : List Bool) (s : State) (plv : Bool) (resp : List Response) :
    (s.withLog plv resp).encodeWalk P bits = (s.encodeWalk P bits).withLog plv resp := by
  induction bits generalizing s with
  | nil => rfl
  | cons bit bits ih => exact ih (s.encodeWalkStep P bit)

theorem decodeBit_withLog (s : State) (p : Prob) (plv : Bool) (resp : List Response) :
    (s.withLog plv resp).decodeBit p = (s.decodeBit p).map fun r => (r.1, r.2.withLog plv resp) := by
  rw [State.decodeBit, State.decodeBit, Option.map_map]
  rfl

theorem decodeWalkStep_withLog (P : Pred) (s : State) (plv : Bool) (resp : List Response) :
    (s.withLog plv resp).decodeWalkStep P = (s.decodeWalkStep P).map fun t => t.withLog plv resp := by
  have hbit := decodeBit_withLog (s.latch (s.prediction P s.node) s.node) (s.prediction P s.node) plv resp
  rw [State.decodeWalkStep, State.decodeWalkStep, Option.map_map]
  refine (congrArg (Option.map _) hbit).trans ?_
  rw [Option.map_map]
  rfl

theorem decodeWalk_withLog (P : Pred) (n : Nat) (s : State) (plv : Bool) (resp : List Response) :
    State.decodeWalk P n (s.withLog plv resp) = (State.decodeWalk P n s).map fun t => t.withLog plv resp := by
  induction n generalizing s with
  | zero => rfl
  | succ n ih =>
    rw [State.decodeWalk, State.decodeWalk, decodeWalkStep_withLog]
    cases s.decodeWalkStep P with
    | none => rfl
    | some u => exact ih u

/-! ### A walk under way -/

theorem encodeWalk_keeps_log (P : Pred) (bits : List Bool) (s : State) :
    (s.encodeWalk P bits).count = s.count ∧ (s.encodeWalk P bits).resp = s.resp := by
  obtain ⟨elow, ehigh, out, node, bitcnt, plast, pnode, p, h, -⟩ := encodeWalk_frame P bits s
  rw [h]
  exact ⟨rfl, rfl⟩

theorem decodeWalk_keeps_log {P : Pred} {n : Nat} {s t : State} (h : State.decodeWalk P n s = some t) :
    t.count = s.count ∧ t.resp = s.resp := by
  obtain ⟨dlow, dhigh, dcode, node, bitcnt, plast, pnode, p, used, ht, -, -⟩ := decodeWalk_frame P n h
  rw [ht]
  exact ⟨rfl, rfl⟩

/-- What the primitives ask of the block in the middle of a byte (R77, R78). -/
structure State.Walking (s : State) (q : Phase) : Prop where
  fault : s.fault = 0
  phase : s.phase = q
  prv : s.prv = true
  tree : s.treeInRange

theorem State.ByteReady.walking {s : State} {q : Phase} (hs : s.ByteReady q) : s.Walking q := by
  obtain ⟨hfault, hphase, hprv, hnode, hbitcnt⟩ := hs
  exact ⟨hfault, hphase, hprv, treeInRange_start hnode hbitcnt⟩

/-- Before the last depth every node is one a decision is made at. -/
theorem nodeInRange_of_treeInRange {s : State} (h : s.treeInRange) (room : s.bitcnt.toNat < 8) :
    nodeInRange s.node := by
  obtain ⟨-, hlow, hhigh⟩ := h
  have hpos := Nat.two_pow_pos s.bitcnt.toNat
  have hpow : 2 ^ (s.bitcnt.toNat + 1) ≤ 2 ^ 8 := Nat.pow_le_pow_right (by omega) room
  rw [nodeInRange]
  omega

theorem treeStep_bitcnt_toNat {s : State} (room : s.bitcnt.toNat < 8) (bit : Bool) :
    (s.treeStep bit).bitcnt.toNat = s.bitcnt.toNat + 1 := by
  rw [State.treeStep_bitcnt]
  bv_omega

theorem encodeWalkStep_walking {s : State} (hs : s.Walking .enc) (room : s.bitcnt.toNat < 8) (P : Pred)
    (bit : Bool) : (s.encodeWalkStep P bit).Walking .enc :=
  ⟨hs.fault, hs.phase, hs.prv, treeInRange_treeStep hs.tree room bit⟩

theorem decodeWalkStep_walking {P : Pred} {s t : State} (h : s.decodeWalkStep P = some t) (hs : s.Walking .dec)
    (room : s.bitcnt.toNat < 8) : t.Walking .dec ∧ t.bitcnt.toNat = s.bitcnt.toNat + 1 := by
  obtain ⟨bit, u, hu, rfl⟩ := decodeWalkStep_some h
  obtain ⟨win, rest, -, rfl⟩ := decodeBit_some hu
  exact ⟨⟨hs.fault, hs.phase, hs.prv, treeInRange_treeStep hs.tree room bit⟩, treeStep_bitcnt_toNat room bit⟩

/-! ### The primitives -/

theorem exec_ppred {s : State} {node : Node} (h0 : s.fault = 0) (hp : s.inBitPhase) (hv : s.prv = true)
    (hnode : nodeInRange node) : exec (.ppred node) s =
      .next ((s.latch (s.prediction Config.pred node) node).withLog true
        (s.resp ++ [⟨false, (s.prediction Config.pred node).zeroExtend 32⟩])) := by
  rw [exec, execPpred, execPpredWith, predictorCommand_of_ready h0 hp hv, require_of hnode]
  rfl

theorem exec_pobs {s : State} (h0 : s.fault = 0) (hp : s.inBitPhase) (hv : s.prv = true) (hl : s.plv = true)
    (bit : Bool) : exec (.pobs s.pnode bit) s =
      .next ((s.learn Config.pred s.pnode bit s.plast).withLog false (s.resp ++ [⟨false, 0⟩])) := by
  rw [exec, execPobs, execPobsWith, predictorCommand_of_ready h0 hp hv, require_of hl, require_of rfl]
  rfl

theorem exec_btstep {s : State} (h0 : s.fault = 0) (hp : s.inBitPhase) (room : s.bitcnt.toNat < 8) (bit : Bool) :
    exec (.btstep bit) s = .next ((s.treeStep bit).answer false ((s.treeStep bit).node.zeroExtend 32)) := by
  rw [exec, execBtstep, unlessFaulted_of_zero h0, require_of hp,
    require_of (c := s.bitcnt.toNat < bitsPerByte) room]
  rfl

theorem exec_btrst {s : State} (h0 : s.fault = 0) (hp : s.inBitPhase) :
    exec .btrst s = .next (s.treeReset.answer false 0) := by
  rw [exec, execBtrst, unlessFaulted_of_zero h0, require_of hp]
  rfl

theorem andThen_next (s : State) (k : State → Result) : andThen (.next s) k = k s := rfl

/-- The end of a decision: `BTSTEP` and `POBS` after a coder command that left `v`. -/
theorem execAll_btstep_pobs {v : State} (h0 : v.fault = 0) (hp : v.inBitPhase) (hv : v.prv = true)
    (room : v.bitcnt.toNat < 8) (resp : List Response) (bit : Bool) :
    ∃ resp', execAll [.btstep bit, .pobs v.pnode bit] (v.withLog true resp) =
      .next (((v.treeStep bit).learn Config.pred v.pnode bit v.plast).withLog false resp') := by
  have hbtstep := exec_btstep (s := v.withLog true resp) h0 hp room bit
  have hpobs := exec_pobs (s := (v.treeStep bit).withLog true
    (resp ++ [⟨false, (v.treeStep bit).node.zeroExtend 32⟩])) h0 hp hv rfl bit
  exact ⟨_, (execAll_cons hbtstep _).trans ((execAll_singleton _ _).trans hpobs)⟩

/-- The response to `PPRED` holds the probability. -/
theorem zeroExtend_setWidth (p : Prob) : (p.zeroExtend 32).setWidth 16 = p :=
  BitVec.setWidth_setWidth_of_le p (by decide)

/-! ### The walk of `ENCB` -/

theorem encodeDecision_eq {s : State} (hs : s.Walking .enc) (room : s.bitcnt.toNat < 8) (bit : Bool) :
    ∃ resp, encodeDecision bit s = .next ((s.encodeWalkStep Config.pred bit).withLog false resp) := by
  have hp : s.inBitPhase := .inr (.inl hs.phase)
  have hppred := exec_ppred hs.fault hp hs.prv (nodeInRange_of_treeInRange hs.tree room)
  generalize hprob : s.prediction Config.pred s.node = p at hppred
  have hz : p ≠ 0 := hprob ▸ clamp_ne_zero _
  have hebit := exec_ebit (s := (s.latch p s.node).withLog true (s.resp ++ [⟨false, p.zeroExtend 32⟩]))
    hs.fault hs.phase hz bit
  obtain ⟨resp, hend⟩ := execAll_btstep_pobs (v := (s.latch p s.node).encodeBit bit p) hs.fault hp hs.prv room
    (s.resp ++ [⟨false, p.zeroExtend 32⟩] ++ [⟨false, 0⟩]) bit
  refine ⟨resp, ?_⟩
  rw [encodeDecision, hppred, andThen_next, withLog_lastData, zeroExtend_setWidth, execAll_cons hebit]
  refine hend.trans ?_
  rw [← hprob]
  rfl

theorem encodeDecisions_eq (bits : List Bool) {s : State} (hs : s.Walking .enc)
    (room : s.bitcnt.toNat + bits.length ≤ 8) :
    ∃ resp, bits.foldl (fun r bit => andThen r (encodeDecision bit)) (.next s) =
      .next ((s.encodeWalk Config.pred bits).withLog (s.plv && bits.isEmpty) resp) := by
  induction bits generalizing s with
  | nil => exact ⟨s.resp, by rw [List.isEmpty_nil, Bool.and_true]; rfl⟩
  | cons bit bits ih =>
    rw [List.length_cons] at room
    have hroom : s.bitcnt.toNat < 8 := by omega
    obtain ⟨resp, hdecision⟩ := encodeDecision_eq hs hroom bit
    have hcount : ((s.encodeWalkStep Config.pred bit).withLog false resp).bitcnt.toNat = s.bitcnt.toNat + 1 :=
      treeStep_bitcnt_toNat hroom bit
    have hwalking := encodeWalkStep_walking hs hroom Config.pred bit
    obtain ⟨resp', hrest⟩ := ih (s := (s.encodeWalkStep Config.pred bit).withLog false resp)
      ⟨hwalking.fault, hwalking.phase, hwalking.prv, hwalking.tree⟩ (by omega)
    refine ⟨resp', ?_⟩
    rw [List.foldl_cons, andThen_next, hdecision, hrest, encodeWalk_withLog, List.isEmpty_cons, Bool.and_false]
    rfl

/-- Settles O45: the eight decisions leave the state of `ENCB`'s loop but for the responses, and `BTRST` resets the walk
as the end of `ENCB` does. -/
theorem encbIsTheWalkOfPrimitives : Obligations.EncbIsTheWalkOfPrimitives := by
  refine fun b => ⟨congrArg (fun w => [w]) (append_eq_or (0x32#8 ++ 0#16) b), fun s h0 hp hv hn hb => ?_,
    fun s h0 h => byteCommand_of_not_ready h0 h _⟩
  have hs : s.ByteReady .enc := ⟨h0, hp, hv, hn, hb⟩
  obtain ⟨resp, hdecisions⟩ := encodeDecisions_eq (byteBits b) hs.walking (by rw [hb]; exact le_rfl)
  obtain ⟨hfault, hphase, -⟩ := encodeWalk_keeps Config.pred (byteBits b) s
  obtain ⟨hcount, hresp⟩ := encodeWalk_keeps_log Config.pred (byteBits b) s
  rw [show (s.plv && (byteBits b).isEmpty) = false from Bool.and_false _] at hdecisions
  rw [exec_encb hs, State.byteEncoded, encodeByteByPrimitives, hdecisions, andThen_next, ← hcount, ← hresp]
  generalize s.encodeWalk Config.pred (byteBits b) = w at hfault hphase
  exact ⟨_, exec_btrst (s := w.withLog false resp) (hfault.trans h0) (.inr (.inl (hphase.trans hp))),
    hfault.trans h0, rfl⟩

/-! ### The walk of `DECB` -/

/-- The response to `DBIT` holds the bit. -/
theorem zeroExtend_ofBool_getLsbD (bit : Bool) : ((BitVec.ofBool bit).zeroExtend 32).getLsbD 0 = bit := by
  cases bit <;> rfl

/-- A decision completes or holds as a turn of `DECB`'s loop does. -/
theorem decodeDecision_eq {s : State} (hs : s.Walking .dec) (room : s.bitcnt.toNat < 8) :
    ∃ resp, decodeDecision s =
      orHold ((s.decodeWalkStep Config.pred).map fun t => .next (t.withLog false resp)) := by
  have hp : s.inBitPhase := .inr (.inr hs.phase)
  have hppred := exec_ppred hs.fault hp hs.prv (nodeInRange_of_treeInRange hs.tree room)
  have hz : s.prediction Config.pred s.node ≠ 0 := clamp_ne_zero _
  rw [decodeDecision, State.decodeWalkStep]
  generalize s.prediction Config.pred s.node = p at hppred hz ⊢
  have hdbit := exec_dbit (s := (s.latch p s.node).withLog true (s.resp ++ [⟨false, p.zeroExtend 32⟩]))
    hs.fault hs.phase hz
  rw [hppred, andThen_next, withLog_lastData, zeroExtend_setWidth, hdbit, decodeBit_withLog]
  cases hbit : (s.latch p s.node).decodeBit p with
  | none => exact ⟨[], rfl⟩
  | some r =>
    obtain ⟨bit, v⟩ := r
    obtain ⟨win, rest, -, rfl⟩ := decodeBit_some hbit
    simp only [Option.map_some, orHold, respond_eq, andThen_next, State.answer_lastData, zeroExtend_ofBool_getLsbD]
    exact execAll_btstep_pobs (v := { s.latch p s.node with
      dlow := win.iv.low, dhigh := win.iv.high, dcode := win.code, inp := rest }) hs.fault hp hs.prv room _ bit

theorem foldl_andThen_fault (f : Fault) (k : State → Result) (l : List Nat) :
    l.foldl (fun r _ => andThen r k) (.fault f) = .fault f := by
  induction l with
  | nil => rfl
  | cons _ l ih => exact ih

theorem decodeDecisions_eq (l : List Nat) {s : State} (hs : s.Walking .dec) (room : s.bitcnt.toNat + l.length ≤ 8) :
    ∃ resp, l.foldl (fun r _ => andThen r decodeDecision) (.next s) =
      orHold ((State.decodeWalk Config.pred l.length s).map fun t => .next (t.withLog (s.plv && l.isEmpty) resp)) := by
  induction l generalizing s with
  | nil =>
    refine ⟨s.resp, ?_⟩
    rw [List.isEmpty_nil, Bool.and_true]
    rfl
  | cons i l ih =>
    rw [List.length_cons] at room
    have hroom : s.bitcnt.toNat < 8 := by omega
    obtain ⟨resp, hdecision⟩ := decodeDecision_eq hs hroom
    rw [List.foldl_cons, andThen_next, hdecision, List.length_cons, State.decodeWalk, List.isEmpty_cons,
      Bool.and_false]
    cases hturn : s.decodeWalkStep Config.pred with
    | none => exact ⟨[], foldl_andThen_fault _ _ l⟩
    | some u =>
      obtain ⟨hwalking, hcount⟩ := decodeWalkStep_walking hturn hs hroom
      obtain ⟨resp', hrest⟩ := ih (s := u.withLog false resp)
        ⟨hwalking.fault, hwalking.phase, hwalking.prv, hwalking.tree⟩ (show u.bitcnt.toNat + l.length ≤ 8 by omega)
      refine ⟨resp', ?_⟩
      rw [Option.map_some, orHold, hrest, decodeWalk_withLog, Option.map_map, Option.bind_some]
      rfl

/-! ### Input that is long enough -/

theorem decodeBit_of_long {s : State} (h : 4 ≤ s.inp.length) (p : Prob) :
    ∃ bit t, s.decodeBit p = some (bit, t) ∧ s.inp.length ≤ t.inp.length + 4 := by
  have hfew := encodeStep_length s.decWindow.iv p (decodedBit s.decWindow p)
  have hused := List.length_take_of_le (hfew.trans h)
  refine ⟨_, _, decodeBit_of_append rfl (List.take_append_drop _ s.inp).symm hused, ?_⟩
  simp only [List.length_drop]
  omega

/-- Four bytes of IN are enough for a decision (R105). -/
theorem decodeWalk_of_long {P : Pred} {n : Nat} {s : State} (h : 4 * n ≤ s.inp.length) :
    ∃ t, State.decodeWalk P n s = some t := by
  induction n generalizing s with
  | zero => exact ⟨s, rfl⟩
  | succ n ih =>
    obtain ⟨bit, u, hu, hlen⟩ := decodeBit_of_long (s := s.latch (s.prediction P s.node) s.node)
      (by rw [State.latch_inp]; omega) (s.prediction P s.node)
    rw [State.latch_inp] at hlen
    obtain ⟨t, ht⟩ := ih (s := (u.treeStep bit).learn P s.node bit (s.prediction P s.node))
      (by rw [State.learn_inp, State.treeStep_inp]; omega)
    refine ⟨t, ?_⟩
    rw [State.decodeWalk, State.decodeWalkStep, hu]
    exact ht

/-- Settles O46: the eight decisions complete or hold as `DECB`'s loop does, and leave its state but for the
responses. -/
theorem decbIsTheWalkOfPrimitives : Obligations.DecbIsTheWalkOfPrimitives := by
  refine ⟨rfl, fun s h0 hp hv hn hb => ?_, fun s h0 h => byteCommand_of_not_ready h0 h _⟩
  have hs : s.ByteReady .dec := ⟨h0, hp, hv, hn, hb⟩
  obtain ⟨resp, hdecisions⟩ := decodeDecisions_eq (List.range bitsPerByte) hs.walking (by rw [hb]; exact le_rfl)
  rw [show (s.plv && (List.range bitsPerByte).isEmpty) = false from Bool.and_false _] at hdecisions
  rw [exec_decb hs, decodeByteByPrimitives, hdecisions, List.length_range, bitsPerByte]
  refine ⟨?_, fun hlong => ?_⟩
  · cases hwalk : State.decodeWalk Config.pred 8 s with
    | none => exact ⟨rfl, rfl⟩
    | some u =>
      obtain ⟨hfault, hphase, -, hout⟩ := decodeWalk_keeps hwalk
      obtain ⟨hcount, hresp⟩ := decodeWalk_keeps_log hwalk
      refine ⟨hfault.trans h0, _, exec_btrst (s := u.withLog false resp) (hfault.trans h0)
        (.inr (.inr (hphase.trans hp))), ?_⟩
      rw [BitVec.setWidth_eq_extractLsb' (by decide), ← hcount, ← hresp, ← hout]
      rfl
  · obtain ⟨u, hu⟩ := decodeWalk_of_long (P := Config.pred) (n := 8) hlong
    exact ⟨u.byteDecoded, by rw [hu]; rfl⟩

end Sys2Proof.Machine

/-! # The logarithm (R111) -/

namespace Sys2Proof.Machine

/-! ### One pass: square and renormalise -/

/-- The fraction bit a pass finds: whether the square of `x / 2^31` reaches 2. -/
def squareBit (x : Nat) : Nat := if 2 ^ 63 ≤ x * x then 1 else 0

/-- The `x` a pass leaves: the square, brought back under `2^32`, rounded down. -/
def squared (x : Nat) : Nat := x * x / 2 ^ (31 + squareBit x)

theorem squareBit_le_one (x : Nat) : squareBit x ≤ 1 := by
  rw [squareBit]
  split <;> decide

theorem squareBit_mono {x y : Nat} (h : x ≤ y) : squareBit x ≤ squareBit y := by
  have hsquare : x * x ≤ y * y := Nat.mul_self_le_mul_self h
  grind [squareBit]

theorem squared_mul_le (x : Nat) : squared x * 2 ^ (31 + squareBit x) ≤ x * x := Nat.div_mul_le_self _ _

theorem lt_squared_succ_mul (x : Nat) : x * x < (squared x + 1) * 2 ^ (31 + squareBit x) := by
  rw [mul_comm (squared x + 1)]
  exact Nat.lt_mul_div_succ _ (Nat.two_pow_pos _)

/-- A pass keeps `x` in `[2^31, 2^32)`. -/
theorem squared_range {x : Nat} (hlow : 2 ^ 31 ≤ x) (hhigh : x < 2 ^ 32) :
    2 ^ 31 ≤ squared x ∧ squared x < 2 ^ 32 := by
  have hsquareLow : 2 ^ 31 * 2 ^ 31 ≤ x * x := Nat.mul_le_mul hlow hlow
  have hsquareHigh : x * x < 2 ^ 32 * 2 ^ 32 := Nat.mul_lt_mul'' hhigh hhigh
  rw [squared, squareBit]
  split <;> omega

theorem log2Passes_succ (n x frac : Nat) :
    log2Passes (n + 1) x frac = log2Passes n (squared x) (frac ||| squareBit x <<< n) := by
  have hbit : 2 ^ 32 ≤ (x * x) >>> 31 ↔ 2 ^ 63 ≤ x * x := by
    rw [Nat.shiftRight_eq_div_pow]
    omega
  rw [log2Passes, squared, squareBit]
  simp only [hbit]
  split
  · rw [← Nat.shiftRight_add, Nat.shiftRight_eq_div_pow]
  · rw [Nat.shiftRight_eq_div_pow, Nat.zero_shiftLeft, Nat.or_zero]

/-- The bits found so far only stand beside the bits still to find. -/
theorem log2Passes_eq_or (n x frac : Nat) : log2Passes n x frac = frac ||| log2Passes n x 0 := by
  induction n generalizing x frac with
  | zero => exact (Nat.or_zero frac).symm
  | succ n ih =>
    rw [log2Passes_succ, log2Passes_succ, ih, ih (squared x) (0 ||| _), Nat.zero_or, Nat.or_assoc]

theorem log2Passes_lt (n x : Nat) : log2Passes n x 0 < 2 ^ n := by
  induction n generalizing x with
  | zero => exact Nat.one_pos
  | succ n ih =>
    rw [log2Passes_succ, log2Passes_eq_or, Nat.zero_or]
    refine Nat.or_lt_two_pow ?_ ((ih _).trans (Nat.pow_lt_pow_succ (by decide)))
    rw [Nat.shiftLeft_eq, pow_succ']
    exact Nat.mul_lt_mul_of_pos_right (Nat.lt_succ_of_le (squareBit_le_one x)) (by positivity)

/-- The first pass finds the top bit of the fraction, the others the rest. -/
theorem log2Passes_succ_zero (n x : Nat) :
    log2Passes (n + 1) x 0 = 2 ^ n * squareBit x + log2Passes n (squared x) 0 := by
  rw [log2Passes_succ, log2Passes_eq_or, Nat.zero_or, Nat.shiftLeft_eq, mul_comm,
    Nat.two_pow_add_eq_or_of_lt (log2Passes_lt n _)]

theorem log2Passes_mono (n : Nat) {x y : Nat} (h : x ≤ y) : log2Passes n x 0 ≤ log2Passes n y 0 := by
  induction n generalizing x y with
  | zero => exact le_rfl
  | succ n ih =>
    rw [log2Passes_succ_zero, log2Passes_succ_zero]
    rcases (squareBit_mono h).eq_or_lt with heq | hlt
    · have hsquared : squared x ≤ squared y := by
        rw [squared, squared, heq]
        exact Nat.div_le_div_right (Nat.mul_self_le_mul_self h)
      exact heq ▸ Nat.add_le_add_left (ih hsquared) _
    · calc 2 ^ n * squareBit x + log2Passes n (squared x) 0
          ≤ 2 ^ n * (squareBit x + 1) := by
            rw [mul_add, mul_one]
            exact Nat.add_le_add_left (log2Passes_lt n _).le _
        _ ≤ 2 ^ n * squareBit y := Nat.mul_le_mul_left _ hlt
        _ ≤ _ := Nat.le_add_right _ _

/-! ### The error of the passes -/

/-- The relative error of one rounding is below `2^-31`, which is below `2^-30` in the logarithm. -/
theorem logb_one_add_le : Real.logb 2 (1 + 1 / 2 ^ 31) ≤ 1 / 2 ^ 30 := by
  have hlog : Real.log (1 + 1 / 2 ^ 31) ≤ 1 / 2 ^ 31 := by
    have h := Real.log_le_sub_one_of_pos (show (0 : ℝ) < 1 + 1 / 2 ^ 31 by positivity)
    linarith
  have htwo : 1 / 2 < Real.log 2 := by
    have h := Real.log_two_gt_d9
    linarith
  rw [Real.logb, div_le_iff₀ (by positivity)]
  linarith

/-- A pass doubles the logarithm, but for its rounding. -/
theorem logb_squared_bounds {x : Nat} (hlow : 2 ^ 31 ≤ x) (hhigh : x < 2 ^ 32) :
    Real.logb 2 (squared x) + (31 + squareBit x) ≤ 2 * Real.logb 2 x ∧
    2 * Real.logb 2 x ≤ Real.logb 2 (squared x) + (31 + squareBit x) + 1 / 2 ^ 30 := by
  obtain ⟨hsquared, -⟩ := squared_range hlow hhigh
  have hx : (0 : ℝ) < x := by exact_mod_cast (show 0 < x by omega)
  have hsq : (2 ^ 31 : ℝ) ≤ squared x := by exact_mod_cast hsquared
  have hpos : (0 : ℝ) < squared x := lt_of_lt_of_le (by positivity) hsq
  have hdouble : Real.logb 2 (x * x) = 2 * Real.logb 2 x := by
    rw [Real.logb_mul hx.ne' hx.ne', two_mul]
  have hscaled : Real.logb 2 (squared x * 2 ^ (31 + squareBit x)) =
      Real.logb 2 (squared x) + (31 + squareBit x) := by
    rw [Real.logb_mul hpos.ne' (by positivity), Real.logb_pow, Real.logb_self_eq_one (by norm_num)]
    push_cast
    ring
  rw [← hdouble, ← hscaled]
  constructor
  · refine Real.logb_le_logb_of_le (by norm_num) (by positivity) ?_
    exact_mod_cast squared_mul_le x
  · have hround : (x * x : ℝ) ≤ squared x * 2 ^ (31 + squareBit x) * (1 + 1 / 2 ^ 31) := by
      have hlt : (x * x : ℝ) ≤ (squared x + 1) * 2 ^ (31 + squareBit x) := by
        exact_mod_cast (lt_squared_succ_mul x).le
      have hone : (squared x + 1 : ℝ) ≤ squared x * (1 + 1 / 2 ^ 31) := by linarith
      calc (x * x : ℝ) ≤ (squared x + 1) * 2 ^ (31 + squareBit x) := hlt
        _ ≤ squared x * (1 + 1 / 2 ^ 31) * 2 ^ (31 + squareBit x) :=
            mul_le_mul_of_nonneg_right hone (by positivity)
        _ = _ := by ring
    calc Real.logb 2 (x * x)
        ≤ Real.logb 2 (squared x * 2 ^ (31 + squareBit x) * (1 + 1 / 2 ^ 31)) :=
          Real.logb_le_logb_of_le (by norm_num) (by positivity) hround
      _ = Real.logb 2 (squared x * 2 ^ (31 + squareBit x)) + Real.logb 2 (1 + 1 / 2 ^ 31) :=
          Real.logb_mul (by positivity) (by positivity)
      _ ≤ _ := by linarith [logb_one_add_le]

/-- `n` passes give the logarithm of `x / 2^31` in units of `2^-n`, from below: short of one unit, and of one
rounding for each value the remaining passes double. -/
theorem log2Passes_bounds (n : Nat) {x : Nat} (hlow : 2 ^ 31 ≤ x) (hhigh : x < 2 ^ 32) :
    (log2Passes n x 0 : ℝ) ≤ 2 ^ n * (Real.logb 2 x - 31) ∧
    2 ^ n * (Real.logb 2 x - 31) < log2Passes n x 0 + 1 + (2 ^ n - 1) / 2 ^ 30 := by
  induction n generalizing x with
  | zero =>
    have hx : (0 : ℝ) < x := by exact_mod_cast (show 0 < x by omega)
    have hge : 31 ≤ Real.logb 2 x := by
      rw [Real.le_logb_iff_rpow_le (by norm_num) hx]
      exact_mod_cast hlow
    have hlt : Real.logb 2 x < 32 := by
      rw [Real.logb_lt_iff_lt_rpow (by norm_num) hx]
      exact_mod_cast hhigh
    simp only [log2Passes]
    norm_num
    constructor <;> linarith
  | succ n ih =>
    obtain ⟨hsquaredLow, hsquaredHigh⟩ := squared_range hlow hhigh
    obtain ⟨hupper, hlower⟩ := ih hsquaredLow hsquaredHigh
    obtain ⟨hdoubleUpper, hdoubleLower⟩ := logb_squared_bounds hlow hhigh
    have hscale : (0 : ℝ) < 2 ^ n := by positivity
    have hscaledUpper := mul_le_mul_of_nonneg_left hdoubleUpper hscale.le
    have hscaledLower := mul_le_mul_of_nonneg_left hdoubleLower hscale.le
    rw [log2Passes_succ_zero, pow_succ]
    push_cast
    constructor <;> linarith

/-! ### `LOG2FX` -/

/-- The value `LOG2FX` starts its passes from: `q` with its top bit moved to bit 31. -/
def normalised (q : Nat) : Nat := q * 2 ^ (31 - Nat.log2 q)

theorem log2fx_eq (q : Nat) :
    log2fx q = 65536 * (Nat.log2 q : Int) + log2Passes 16 (normalised q) 0 - 1048576 := by
  simp only [log2fx, Nat.shiftLeft_eq, normalised, mul_comm (Nat.log2 q) _,
    ← Nat.two_pow_add_eq_or_of_lt (log2Passes_lt 16 _)]
  push_cast
  rfl

theorem log2_le_sixteen {q : Nat} (hpos : 1 ≤ q) (h : q ≤ 65536) : Nat.log2 q ≤ 16 :=
  Nat.le_of_lt_succ ((Nat.log2_lt (by omega)).2 (by omega))

theorem normalised_range {q : Nat} (hpos : 1 ≤ q) (h : q ≤ 65536) :
    2 ^ 31 ≤ normalised q ∧ normalised q < 2 ^ 32 := by
  have hexp := log2_le_sixteen hpos h
  constructor
  · calc 2 ^ 31 = 2 ^ Nat.log2 q * 2 ^ (31 - Nat.log2 q) := by rw [← pow_add]; congr 1; omega
      _ ≤ normalised q := Nat.mul_le_mul_right _ (Nat.log2_self_le (by omega))
  · calc normalised q < 2 ^ (Nat.log2 q + 1) * 2 ^ (31 - Nat.log2 q) :=
          Nat.mul_lt_mul_of_pos_right Nat.lt_log2_self (Nat.two_pow_pos _)
      _ = 2 ^ 32 := by rw [← pow_add]; congr 1; omega

theorem logb_normalised {q : Nat} (hpos : 1 ≤ q) (h : q ≤ 65536) :
    Real.logb 2 (normalised q) = Real.logb 2 q + 31 - Nat.log2 q := by
  have hq : (0 : ℝ) < q := by exact_mod_cast hpos
  have hexp := log2_le_sixteen hpos h
  rw [normalised]
  push_cast
  rw [Real.logb_mul hq.ne' (by positivity), Real.logb_pow, Real.logb_self_eq_one (by norm_num),
    Nat.cast_sub (by omega)]
  push_cast
  ring

theorem logb_fraction {q : Nat} (hpos : 1 ≤ q) :
    Real.logb 2 ((q : ℝ) / 65536) = Real.logb 2 q - 16 := by
  have hq : (q : ℝ) ≠ 0 := by exact_mod_cast (show q ≠ 0 by omega)
  rw [Real.logb_div hq (by norm_num), show (65536 : ℝ) = 2 ^ 16 by norm_num, Real.logb_pow,
    Real.logb_self_eq_one (by norm_num)]
  norm_num

/-- `LOG2FX` is below the real logarithm by less than one unit and the roundings of 16 passes. -/
theorem log2fx_bounds {q : Nat} (hpos : 1 ≤ q) (h : q ≤ 65536) :
    -1.0001 < (log2fx q : ℝ) - 65536 * Real.logb 2 ((q : ℝ) / 65536) ∧
    (log2fx q : ℝ) - 65536 * Real.logb 2 ((q : ℝ) / 65536) ≤ 0 := by
  obtain ⟨hlow, hhigh⟩ := normalised_range hpos h
  obtain ⟨hupper, hlower⟩ := log2Passes_bounds 16 hlow hhigh
  rw [logb_normalised hpos h] at hupper hlower
  rw [log2fx_eq, logb_fraction hpos]
  push_cast
  constructor <;> linarith

theorem log2fx_nonpos {q : Nat} (hpos : 1 ≤ q) (h : q ≤ 65536) : log2fx q ≤ 0 := by
  obtain ⟨-, hupper⟩ := log2fx_bounds hpos h
  have hfraction : Real.logb 2 ((q : ℝ) / 65536) ≤ 0 := by
    refine Real.logb_nonpos (by norm_num) (by positivity) ?_
    rw [div_le_one (by norm_num)]
    exact_mod_cast h
  have hreal : (log2fx q : ℝ) ≤ 0 := by linarith
  exact_mod_cast hreal

theorem log2fx_mono {q r : Nat} (hpos : 1 ≤ q) (h : q ≤ r) : log2fx q ≤ log2fx r := by
  have hexp : Nat.log2 q ≤ Nat.log2 r :=
    (Nat.le_log2 (by omega)).2 ((Nat.log2_self_le (by omega)).trans h)
  rw [log2fx_eq, log2fx_eq]
  rcases hexp.eq_or_lt with heq | hlt
  · have hpasses : log2Passes 16 (normalised q) 0 ≤ log2Passes 16 (normalised r) 0 := by
      rw [normalised, normalised, heq]
      exact log2Passes_mono 16 (Nat.mul_le_mul_right _ h)
    omega
  · have hfraction := log2Passes_lt 16 (normalised q)
    omega

/-- Settles O54: the error of the passes carries over to `LOG2FX`, whose integer part is exact. -/
theorem logarithmIsBoundedBelowTheRealOne : Obligations.LogarithmIsBoundedBelowTheRealOne := by
  refine ⟨fun q hpos h => ⟨?_, log2fx_nonpos hpos h, log2fx_bounds hpos h⟩,
    fun q r hpos h _ => log2fx_mono hpos h, by decide⟩
  rw [log2fx_eq]
  omega

end Sys2Proof.Machine

/-! # The sampler commands (46_sampler.md) -/

namespace Sys2Proof.Machine

/-! ### The stored distribution (R109) -/

theorem getD_storedDist_toNat (f : Nat → Nat) {v i : Nat} (h : i < v) :
    ((storedDist v f).getD i 0).toNat = min (f i) 65536 := by
  rw [List.getD_eq_getElem _ _ (by rwa [storedDist_length]), ← saturateMass_toNat]
  simp [storedDist]

/-! ### The commands of a pass (R113, R114, R116, R117) -/

theorem exec_seed {s : State} (h0 : s.fault = 0) (ext : Word) :
    exec (.seed ext) s = .next (({ s with rng := ext, seeded := true } : State).answer false 0) :=
  unlessFaulted_of_zero h0 _

/-- Settles O50: past its checks each command is one update, and the distribution is the stored one. -/
theorem samplerPassCommandsOpenPasses : Obligations.SamplerPassCommandsOpenPasses := by
  refine ⟨rfl, rfl, fun ext => rfl, fun s h0 hp hv hsize => ?_, fun s h0 h => ?_, fun s h0 hp hv hsize => ?_,
    fun s ext h0 => exec_seed h0 ext, fun s h0 hp hseeded => ?_, fun s h0 h => ?_⟩
  · refine ⟨storedDist s.vsize.toNat (Config.byteInit s.vsize.toNat).2, storedDist_length _ _,
      fun _ hi => getD_storedDist_toNat _ hi, ?_⟩
    rw [exec, execSstart, execSstartWith, idleCommand_of_idle h0 hp, require_of hv, require_of hsize]
    rfl
  · rw [exec, execSstart, execSstartWith, unlessFaulted_of_zero h0]
    rcases h with hp | hv
    · rw [require_of_not hp, raise_eq]
    · exact require_seq_of_seq fun _ => require_flag_of_false hv s _
  · rw [exec, execSstart, execSstartWith, idleCommand_of_idle h0 hp, require_of hv,
      require_of_not (by simp [hsize]), raise_eq]
  · rw [exec, execGstart, phaseCommand_of_phase h0 hp, require_of hseeded]
    rfl
  · rw [exec, execGstart, unlessFaulted_of_zero h0]
    rcases h with hp | hseeded
    · rw [require_of_not hp, raise_eq]
    · exact require_seq_of_seq fun _ => require_flag_of_false hseeded s _

theorem entryPresent_iff (e : Entry) : entryPresent e = true ↔ e.getLsbD 8 = false := by
  rw [entryPresent, Bool.not_eq_true']

/-- Settles O51: the score reads the state before the update, and the checks stand in the order of R114. -/
theorem trainbScoresThenUpdates : Obligations.TrainbScoresThenUpdates := by
  refine fun b => ⟨congrArg (fun w => [w]) (append_eq_or (0x61#8 ++ 0#16) b), fun s h0 hp hpresent hmass => ?_,
    fun s h0 hp => phaseCommand_of_other_phase h0 hp _, fun s h0 hp habsent => ?_, fun s h0 hp hpresent hmass => ?_⟩
  · refine ⟨storedDist s.vsize.toNat (Config.byteUpdate s.bstate (s.forward b).toNat).2, storedDist_length _ _,
      fun _ hi => getD_storedDist_toNat _ hi, ?_⟩
    rw [exec, execTrainb, execTrainbWith, phaseCommand_of_phase h0 hp, require_of ((entryPresent_iff _).2 hpresent),
      require_of hmass]
    rfl
  · rw [exec, execTrainb, execTrainbWith, phaseCommand_of_phase h0 hp,
      require_of_not (by simp [entryPresent_iff, habsent]), raise_eq]
  · rw [exec, execTrainb, execTrainbWith, phaseCommand_of_phase h0 hp, require_of ((entryPresent_iff _).2 hpresent),
      require_of_not (not_not_intro hmass), raise_eq]

/-! ### The reports (R115, R119) -/

theorem samplerCommand_of_samplerPhase {s : State} (h0 : s.fault = 0) (hp : s.inSamplerPhase) (k : Result) :
    unlessFaulted s (require s.inSamplerPhase .seq s k) = k := by
  rw [unlessFaulted_of_zero h0, require_of hp]

theorem samplerCommand_of_bitPhase {s : State} (h0 : s.fault = 0) (hp : s.inBitPhase) (k : Result) :
    unlessFaulted s (require s.inSamplerPhase .seq s k) = .next (s.faulted .seq) := by
  have hno : ¬s.inSamplerPhase := by rcases hp with h | h | h <;> simp [State.inSamplerPhase, h]
  rw [unlessFaulted_of_zero h0, require_of_not hno, raise_eq]

/-- The two ways the spec writes the quotient: `-HACC` is a natural number where `HACC` is not positive. -/
theorem natCast_negAcc_div {hacc : BitVec 64} (h : hacc.toInt ≤ 0) (nsym : Len) :
    (((negAcc hacc).toNat / nsym.toNat : Nat) : Int) = -hacc.toInt / (nsym.toNat : Int) := by
  rw [Int.natCast_div, negAcc, Int.toNat_of_nonneg (by omega)]

theorem crossEntropy_toNat {hacc : BitVec 64} {nsym : Len} (h : hacc.toInt ≤ 0)
    (hfits : -hacc.toInt / (nsym.toNat : Int) < 2 ^ 32) :
    ((crossEntropy hacc nsym).toNat : Int) = -hacc.toInt / (nsym.toNat : Int) := by
  rw [← natCast_negAcc_div h] at hfits ⊢
  have hnat : (negAcc hacc).toNat / nsym.toNat < 2 ^ 32 := by exact_mod_cast hfits
  have hnonneg : 0 ≤ negAcc hacc := by
    rw [negAcc]
    omega
  rw [crossEntropy, if_pos ⟨hnonneg, hnat⟩, BitVec.toNat_ofNat, Nat.mod_eq_of_lt hnat]

/-- An average of at most 16 bits for each symbol fits the response (R115). -/
theorem crossEntropy_le {hacc : BitVec 64} {nsym : Len} (hn : nsym ≠ 0) (h : hacc.toInt ≤ 0)
    (hbound : -hacc.toInt ≤ 2 ^ 20 * (nsym.toNat : Int)) : (crossEntropy hacc nsym).toNat ≤ 2 ^ 20 := by
  have hpos : (0 : Int) < nsym.toNat := by
    have : nsym.toNat ≠ 0 := fun hzero => hn (BitVec.eq_of_toNat_eq hzero)
    omega
  have hquotient : -hacc.toInt / (nsym.toNat : Int) ≤ 2 ^ 20 := by
    have h := Int.ediv_le_ediv hpos hbound
    rwa [Int.mul_ediv_cancel _ hpos.ne'] at h
  have hdata := crossEntropy_toNat h (hquotient.trans_lt (by norm_num))
  omega

/-- Settles O52: behind the checks of the phase and of `NSYM` the data is `crossEntropy`'s. -/
theorem xentAndSdistReport : Obligations.XentAndSdistReport := by
  refine ⟨rfl, fun i => congrArg (fun w => [w]) (append_eq_or (0x65#8 ++ 0#16) i),
    fun s h0 hp hn => ⟨crossEntropy s.hacc s.nsym, ?_, crossEntropy_toNat, crossEntropy_le hn⟩, fun s h0 hp hn => ?_,
    fun s i h0 hp => ⟨fun hi => ?_, fun hi => ?_⟩,
    fun s i h0 hp => ⟨samplerCommand_of_bitPhase h0 hp _, samplerCommand_of_bitPhase h0 hp _⟩⟩
  · rw [exec, execXent, samplerCommand_of_samplerPhase h0 hp, require_of hn, respond_eq]
  · rw [exec, execXent, samplerCommand_of_samplerPhase h0 hp, require_of_not (not_not_intro hn), raise_eq]
  · rw [exec, execSdist, samplerCommand_of_samplerPhase h0 hp, require_of hi, respond_eq]
  · rw [exec, execSdist, samplerCommand_of_samplerPhase h0 hp, require_of_not hi.not_gt, raise_eq]

/-! ### Drawing a symbol (R112, R118) -/

theorem nextRng_toNat (rng : Word) : (nextRng rng).toNat = (rng.toNat * 1664525 + 1013904223) % 2 ^ 32 := by
  rw [nextRng, rngMultiplier, rngIncrement]
  bv_omega

theorem drawOf_toNat (rng : Word) : (drawOf rng).toNat = rng.toNat / 2 ^ 16 := by
  rw [drawOf, BitVec.extractLsb'_toNat, Nat.shiftRight_eq_div_pow]
  have := rng.isLt
  omega

theorem scan_cons (q : Mass) (qs : List Mass) (r i : Nat) :
    scan (q :: qs) r i = if r < q.toNat then some i else scan qs (r - q.toNat : Nat) (i + 1) := by
  rw [scan]
  split
  · rw [if_pos (by omega)]
  · rw [if_neg (by omega), Int.ofNat_sub (by omega)]

/-- The scan stops at the first index where the masses so far exceed the draw (R118). -/
theorem scan_eq_some {qs : List Mass} {r i j : Nat} (h : scan qs r i = some j) :
    ∃ k, j = i + k ∧ ((qs.take k).map BitVec.toNat).sum ≤ r ∧ r < ((qs.take (k + 1)).map BitVec.toNat).sum := by
  induction qs generalizing r i with
  | nil => cases h
  | cons q qs ih =>
    rw [scan_cons] at h
    split at h
    · next hexceeded =>
      cases h
      exact ⟨0, rfl, Nat.zero_le r, by simpa using hexceeded⟩
    · obtain ⟨k, rfl, hlow, hhigh⟩ := ih h
      refine ⟨k + 1, by omega, ?_⟩
      simp only [List.take_succ_cons, List.map_cons, List.sum_cons]
      omega

/-- The scan runs out only when all masses together do not exceed the draw (R118). -/
theorem scan_eq_none {qs : List Mass} {r i : Nat} (h : scan qs r i = none) : (qs.map BitVec.toNat).sum ≤ r := by
  induction qs generalizing r i with
  | nil => exact Nat.zero_le r
  | cons q qs ih =>
    rw [scan_cons] at h
    split at h
    · cases h
    · have hrest := ih h
      simp only [List.map_cons, List.sum_cons]
      omega

/-- The sum of the masses of the indices below `k`. -/
def State.cumulative (s : State) (k : Nat) : Nat := ((List.range k).map fun j => (s.mass j).toNat).sum

theorem sum_masses_take (s : State) {k : Nat} (h : k ≤ s.vsize.toNat) :
    ((s.masses.take k).map BitVec.toNat).sum = s.cumulative k := by
  rw [State.masses, ← List.map_take, List.take_range, min_eq_left h, List.map_map]
  rfl

theorem sum_masses (s : State) : (s.masses.map BitVec.toNat).sum = s.cumulative s.vsize.toNat := by
  rw [← sum_masses_take s le_rfl, List.take_of_length_le (masses_length s).le]

theorem sampledIndex_lt {s : State} (h : 1 ≤ s.vsize.toNat) (r : BitVec 16) :
    s.sampledIndex r < s.vsize.toNat := by
  rw [State.sampledIndex]
  cases hscan : scan s.masses r.toNat 0 with
  | none => exact Nat.sub_lt h Nat.one_pos
  | some j => simpa using (scan_index_bounds hscan).2

/-- The inverse of the cumulative distribution, with the fallback of R118. -/
theorem sampledIndex_cumulative {s : State} (h : 1 ≤ s.vsize.toNat) (r : BitVec 16) :
    (s.cumulative (s.sampledIndex r) ≤ r.toNat ∧ r.toNat < s.cumulative (s.sampledIndex r + 1)) ∨
    (s.cumulative s.vsize.toNat ≤ r.toNat ∧ s.sampledIndex r = s.vsize.toNat - 1) := by
  have hlt := sampledIndex_lt h r
  rw [State.sampledIndex] at hlt ⊢
  cases hscan : scan s.masses r.toNat 0 with
  | none => exact .inr ⟨sum_masses s ▸ scan_eq_none hscan, rfl⟩
  | some j =>
    rw [hscan, Option.getD_some] at hlt
    obtain ⟨k, rfl, hlow, hhigh⟩ := scan_eq_some hscan
    rw [Nat.zero_add] at hlt
    rw [sum_masses_take s hlt.le] at hlow
    rw [sum_masses_take s hlt] at hhigh
    rw [Option.getD_some, Nat.zero_add]
    exact .inl ⟨hlow, hhigh⟩

/-- What `GENB` leaves. -/
def State.generated (s : State) : State :=
  (({ s.updateModel Config.bmodel (generatedIndex s) with rng := nextRng s.rng, count := s.count + 1 } :
    State).emit [generatedByte s]).answer false ((generatedByte s).zeroExtend 32)

theorem exec_genb {s : State} (h0 : s.fault = 0) (hp : s.phase = .gen) : exec .genb s = .next s.generated :=
  phaseCommand_of_phase h0 hp _

/-- Settles O53: the index is `generatedIndex`, and the scan places the draw between two cumulative masses. -/
theorem genbSamplesByInverseCdf : Obligations.GenbSamplesByInverseCdf := by
  refine ⟨rfl, fun s h0 hp hsize => ?_, fun s h0 hp => phaseCommand_of_other_phase h0 hp _⟩
  refine ⟨nextRng s.rng, generatedIndex s, generatedByte s,
    storedDist s.vsize.toNat (Config.byteUpdate s.bstate (generatedIndex s)).2, nextRng_toNat _,
    sampledIndex_lt hsize _, ?_, (BitVec.setWidth_eq_extractLsb' (by decide)).symm, storedDist_length _ _,
    fun _ hi => getD_storedDist_toNat _ hi, exec_genb h0 hp⟩
  rw [← drawOf_toNat]
  exact sampledIndex_cumulative hsize _

/-- `INV` holds a present value at each index below the size (R24). -/
theorem inverse_present {s : State} (h : s.mapMatches) {i : Nat} (hi : i < s.vsize.toNat) :
    s.vmask.getLsbD ((s.inverse i).extractLsb' 0 8).toNat = true := by
  obtain ⟨v, hv, rfl⟩ := exists_present_of_lt_vsize h hi
  have hbyte : (v.setWidth 9).extractLsb' 0 8 = v := by
    rw [← BitVec.setWidth_eq_extractLsb' (by decide), BitVec.setWidth_setWidth_of_le _ (by decide),
      BitVec.setWidth_eq]
  rwa [inverse_rank h hv, hbyte]

/-- Settles O57: in `GEN` there is a model, so the map matches the mask and the sampled index is in use. -/
theorem generatedBytesAreInTheVocabulary : Obligations.GeneratedBytesAreInTheVocabulary := by
  rintro s ⟨hmap, -, hmodel, hsampler, -⟩ h0 hp
  obtain ⟨mapped, nonempty, -⟩ := hmodel (hsampler (.inr hp))
  exact ⟨s.generated, generatedByte s, exec_genb h0 hp, rfl,
    inverse_present (hmap mapped) (sampledIndex_lt nonempty _)⟩

end Sys2Proof.Machine

/-! # The byte model's fixtures (R120, R121) -/

namespace Sys2Proof.Machine

theorem sum_tb0 (v : Nat) : ((List.range v).map (tb0.init v).2).sum = v * (65536 / v) := by
  rw [tb0, List.map_const', List.sum_replicate, List.length_range, smul_eq_mul]

theorem tb1Dist_le (counts : List Nat) (i : Nat) : tb1Dist counts i ≤ 65536 := by
  have hle : counts.getD i 0 ≤ counts.sum := by
    by_cases hi : i < counts.length
    · rw [List.getD_eq_getElem _ _ hi]
      exact List.le_sum_of_mem (List.getElem_mem hi)
    · rw [List.getD_eq_default _ _ (not_lt.1 hi)]
      exact Nat.zero_le _
  exact Nat.div_le_of_le_mul (by rw [mul_comm]; exact Nat.mul_le_mul_right _ hle)

theorem map_tb1Dist (counts : List Nat) :
    (List.range counts.length).map (tb1Dist counts) = counts.map fun c => 65536 * c / counts.sum :=
  List.ext_getElem (by simp) fun i _ hi => by
    rw [List.length_map] at hi
    simp [tb1Dist, hi]

/-- Rounding each of the quotients down loses less than 1 for each. -/
theorem sum_div_bounds (a : Nat) {d : Nat} (hd : 0 < d) (l : List Nat) :
    d * (l.map fun c => a * c / d).sum ≤ a * l.sum ∧
    a * l.sum + l.length ≤ d * ((l.map fun c => a * c / d).sum + l.length) := by
  induction l with
  | nil => simp
  | cons c l ih =>
    obtain ⟨hlow, hhigh⟩ := ih
    have hdown : d * (a * c / d) ≤ a * c := Nat.mul_div_le _ _
    have hup : a * c < d * (a * c / d + 1) := Nat.lt_mul_div_succ _ hd
    simp only [List.map_cons, List.sum_cons, List.length_cons, mul_add, mul_one] at *
    omega

/-- Settles O60: TB0's masses are one number `v` times; TB1's are quotients by the total of the counts. -/
theorem byteModelFixturesBehave : Obligations.ByteModelFixturesBehave := by
  refine ⟨fun v _ _ => ⟨sum_tb0 v, by rw [sum_tb0, Nat.mul_div_eq_iff_dvd]⟩,
    fun counts hne hpos => ⟨tb1Dist_le counts, ?_⟩⟩
  have hlength : 0 < counts.length := List.length_pos_iff.2 hne
  have htotal : 0 < counts.sum := List.sum_pos _ hpos hne
  obtain ⟨hlow, hhigh⟩ := sum_div_bounds 65536 htotal counts
  rw [map_tb1Dist]
  rw [mul_comm 65536] at hlow hhigh
  refine ⟨Nat.le_of_mul_le_mul_left hlow htotal, ?_⟩
  exact lt_of_mul_lt_mul_left (by omega) (Nat.zero_le counts.sum)

end Sys2Proof.Machine

/-! # The system commands (47_system.md) -/

namespace Sys2Proof.Machine

/-! ### The phase table (R130) -/

theorem checkedCommand_of {c : Prop} [Decidable c] {s : State} (h0 : s.fault = 0) (hc : c) (k : Result) :
    unlessFaulted s (require c .seq s k) = k := by
  rw [unlessFaulted_of_zero h0, require_of hc]

theorem checkedCommand_of_not {c : Prop} [Decidable c] {s : State} (h0 : s.fault = 0) (hc : ¬c) (k : Result) :
    unlessFaulted s (require c .seq s k) = .next (s.faulted .seq) := by
  rw [unlessFaulted_of_zero h0, require_of_not hc, raise_eq]

/-- Settles O13: a command with a "-" in its row begins with the check of its phases, whatever it goes on to do. -/
theorem illegalPhaseFaults : Obligations.IllegalPhaseFaults := by
  intro i s h0 hi
  cases i with
  | nop | sreset | rdr | seed | vmfwd | vminv => cases hi
  | stop => exact checkedCommand_of_not h0 (by cases hp : s.phase <;> simp_all [legalIn]) _
  | vmclr | vmall | vmark | setmask | vmbuild | setlen | hdrw | hdrr | pinit | estart | dstart | sstart =>
    exact idleCommand_of_not_idle h0 (by simpa [legalIn] using hi) _
  | ppred | pobs | btrst | btstep =>
    exact checkedCommand_of_not h0 (c := s.inBitPhase) (by simpa [legalIn, and_assoc] using hi) _
  | ebit | encb | eflush | dbit | decb | trainb | gstart | genb =>
    exact phaseCommand_of_other_phase h0 (by simpa [legalIn] using hi) _
  | xent | sdist => exact checkedCommand_of_not h0 (c := s.inSamplerPhase) (by simpa [legalIn] using hi) _

/-! ### The transitions (R129) -/

/-- The commands of the transition table: the only ones that write `PHASE` (R129). -/
def writesPhase : Instr → Bool
  | .estart | .eflush | .dstart | .sstart | .gstart | .stop | .sreset => true
  | _ => false

theorem writesPhase_of_phaseMove {i : Instr} {p q : Phase} (h : phaseMove i p q) : writesPhase i = true := by
  rcases h with ⟨rfl, -⟩ | ⟨rfl, -⟩ | ⟨rfl, -⟩ | ⟨rfl, -⟩ | ⟨rfl, -⟩ | ⟨rfl, -⟩ | ⟨rfl, -⟩ <;> rfl

/-- The table gives a command one target from each phase. -/
theorem phaseMove_unique {i : Instr} {p q r : Phase} (hq : phaseMove i p q) (hr : phaseMove i p r) : q = r := by
  rcases hq with ⟨rfl, -, rfl⟩ | ⟨rfl, -, rfl⟩ | ⟨rfl, -, rfl⟩ | ⟨rfl, -, rfl⟩ | ⟨rfl, -, rfl⟩ | ⟨rfl, -, rfl⟩ |
    ⟨rfl, rfl⟩ <;> simp_all [phaseMove]

/-- The transition table and the phase table agree on where its commands are legal (R129, R130). -/
theorem legalIn_iff_exists_phaseMove {i : Instr} (hi : writesPhase i = true) (p : Phase) :
    legalIn i p = true ↔ ∃ q, phaseMove i p q := by
  cases i with
  | estart | eflush | dstart | sstart | gstart | stop | sreset => cases p <;> simp [legalIn, phaseMove]
  | _ => cases hi

/-- A refusal and a fault leave `PHASE`. -/
theorem phase_of_refused_or_raised {s t : State} (h : Refused s t ∨ Raised s t) : t.phase = s.phase := by
  rcases h with ⟨-, rfl⟩ | ⟨-, c, rfl⟩ <;> rfl

theorem fault_ne_zero_of_refused_or_raised {s t : State} (h : Refused s t ∨ Raised s t) : t.fault ≠ 0 := by
  rcases h with ⟨hne, rfl⟩ | ⟨-, c, rfl⟩
  · exact hne
  · exact c.code_ne_zero

/-- Leaves a command's own outcome to show. -/
theorem phase_of_outcome {s t : State} {own : Prop} (h : Refused s t ∨ Raised s t ∨ own)
    (f : own → t.phase = s.phase) : t.phase = s.phase :=
  (or_assoc.2 h).elim phase_of_refused_or_raised f

theorem phase_of_writeHeader {s t : State} (h : writeHeader s = .next t) : t.phase = s.phase := by
  obtain ⟨bytes, d, -, rfl | ⟨m, rfl⟩⟩ := writeHeader_frame h <;> rfl

theorem phase_of_readHeader {s t : State} (h : readHeader s = some (.next t)) : t.phase = s.phase := by
  obtain ⟨used, rest, l, d, -, -, rfl | ⟨m, rfl⟩⟩ := readHeader_frame h <;> rfl

theorem encodeWalk_phase (P : Pred) (s : State) (bits : List Bool) : (s.encodeWalk P bits).phase = s.phase := by
  obtain ⟨elow, ehigh, out, node, bitcnt, plast, pnode, p, h, -⟩ := encodeWalk_frame P bits s
  rw [h]

theorem decodeBit_phase {s t : State} {p : Prob} {bit : Bool} (h : s.decodeBit p = some (bit, t)) :
    t.phase = s.phase := by
  obtain ⟨win, rest, -, rfl⟩ := decodeBit_some h
  rfl

theorem decodeWalk_phase {P : Pred} {n : Nat} {s t : State} (h : State.decodeWalk P n s = some t) :
    t.phase = s.phase := by
  obtain ⟨dlow, dhigh, dcode, node, bitcnt, plast, pnode, p, used, ht, -, -⟩ := decodeWalk_frame P n h
  rw [ht]

/-- A command outside the transition table leaves `PHASE`, by its own outcome: the kinds of effect do not name the command
that moves it. -/
theorem exec_keeps_phase {i : Instr} {s t : State} (hi : writesPhase i = false) (h : exec i s = .next t) :
    t.phase = s.phase := by
  cases i with
  | estart | eflush | dstart | sstart | gstart | stop | sreset => cases hi
  | hdrw => exact phase_of_outcome (execHdrw_next h) fun ⟨_, _, hw⟩ => phase_of_writeHeader hw
  | hdrr => exact phase_of_outcome (execHdrr_next h) fun ⟨_, _, hr⟩ => phase_of_readHeader hr
  | encb b =>
    refine phase_of_outcome (execEncb_next h) fun ⟨_, _, _, _, e⟩ => ?_
    rw [e, State.answer_phase, State.endByte_phase, encodeWalk_phase]
  | dbit p =>
    refine phase_of_outcome (execDbit_next h) fun ⟨_, _, _, _, _, hd, e⟩ => ?_
    rw [e, State.answer_phase, decodeBit_phase hd]
  | decb =>
    refine phase_of_outcome (execDecb_next h) fun ⟨_, _, _, _, _, hd, e⟩ => ?_
    rw [e, State.answer_phase, State.emit_phase, State.endByte_phase, decodeWalk_phase hd]
  | nop => exact phase_of_outcome (execNop_next h) fun ⟨_, e⟩ => e ▸ rfl
  | rdr r => exact phase_of_outcome (execRdr_next h) fun ⟨_, _, e⟩ => e ▸ rfl
  | vmclr => exact phase_of_outcome (execVmclr_next h) fun ⟨_, _, e⟩ => e ▸ rfl
  | vmall => exact phase_of_outcome (execVmall_next h) fun ⟨_, _, e⟩ => e ▸ rfl
  | vmark b => exact phase_of_outcome (execVmark_next h) fun ⟨_, _, e⟩ => e ▸ rfl
  | vmbuild => exact phase_of_outcome (execVmbuild_next h) fun ⟨_, _, e⟩ => e ▸ rfl
  | vmfwd b => exact phase_of_outcome (execVmfwd_next h) fun ⟨_, _, e⟩ => e ▸ rfl
  | vminv idx => exact phase_of_outcome (execVminv_next h) fun ⟨_, _, e⟩ => e ▸ rfl
  | ebit bit p => exact phase_of_outcome (execEbit_next h) fun ⟨_, _, _, e⟩ => e ▸ State.encodeBit_phase s bit p
  | pinit => exact phase_of_outcome (execPinit_next h) fun ⟨_, _, _, _, e⟩ => e ▸ rfl
  | ppred node => exact phase_of_outcome (execPpred_next h) fun ⟨_, _, _, _, e⟩ => e ▸ rfl
  | pobs node bit => exact phase_of_outcome (execPobs_next h) fun ⟨_, _, _, _, _, e⟩ => e ▸ rfl
  | btrst => exact phase_of_outcome (execBtrst_next h) fun ⟨_, _, e⟩ => e ▸ rfl
  | btstep bit => exact phase_of_outcome (execBtstep_next h) fun ⟨_, _, _, e⟩ => e ▸ rfl
  | trainb b => exact phase_of_outcome (execTrainb_next h) fun ⟨_, _, _, _, e⟩ => e ▸ rfl
  | xent => exact phase_of_outcome (execXent_next h) fun ⟨_, _, _, e⟩ => e ▸ rfl
  | genb => exact phase_of_outcome (execGenb_next h) fun ⟨_, _, e⟩ => e ▸ rfl
  | sdist idx => exact phase_of_outcome (execSdist_next h) fun ⟨_, _, _, e⟩ => e ▸ rfl
  | setmask k ext => exact phase_of_outcome (execSetmask_next h) fun ⟨_, _, e⟩ => e ▸ rfl
  | setlen hi8 ext => exact phase_of_outcome (execSetlen_next h) fun ⟨_, _, e⟩ => e ▸ rfl
  | seed ext => exact phase_of_outcome (execSeed_next h) fun ⟨_, e⟩ => e ▸ rfl

/-- A command of the transition table that is neither refused nor faults moves `PHASE` by its row. -/
theorem exec_moves_phase {i : Instr} {s t : State} (hi : writesPhase i = true) (h : exec i s = .next t) :
    (Refused s t ∨ Raised s t) ∨ phaseMove i s.phase t.phase := by
  cases i with
  | estart => exact (or_assoc.2 (execEstart_next h)).imp_right fun ⟨_, hp, e⟩ => .inl ⟨rfl, hp, e ▸ rfl⟩
  | eflush => exact (or_assoc.2 (execEflush_next h)).imp_right fun ⟨_, hp, e⟩ => .inr (.inl ⟨rfl, hp, e ▸ rfl⟩)
  | dstart =>
    refine (or_assoc.2 (execDstart_next h)).imp_right fun ⟨_, hp, hd⟩ => .inr (.inr (.inl ⟨rfl, hp, ?_⟩))
    obtain ⟨coded, rest, -, -, rfl⟩ := startDecoder_next hd
    rfl
  | sstart =>
    exact (or_assoc.2 (execSstart_next h)).imp_right fun ⟨_, hp, _, _, e⟩ =>
      .inr (.inr (.inr (.inl ⟨rfl, hp, e ▸ rfl⟩)))
  | gstart =>
    exact (or_assoc.2 (execGstart_next h)).imp_right fun ⟨_, hp, _, e⟩ =>
      .inr (.inr (.inr (.inr (.inl ⟨rfl, hp, e ▸ rfl⟩))))
  | stop =>
    exact (or_assoc.2 (execStop_next h)).imp_right fun ⟨_, hp, e⟩ =>
      .inr (.inr (.inr (.inr (.inr (.inl ⟨rfl, hp, e ▸ rfl⟩)))))
  | sreset => exact .inr (.inr (.inr (.inr (.inr (.inr (.inr ⟨rfl, execSreset_next h ▸ rfl⟩))))))
  | _ => cases hi

theorem exec_phase_kept_or_moved {i : Instr} {s t : State} (h : exec i s = .next t) :
    t.phase = s.phase ∨ phaseMove i s.phase t.phase := by
  cases hi : writesPhase i with
  | false => exact .inl (exec_keeps_phase hi h)
  | true => exact (exec_moves_phase hi h).imp_left phase_of_refused_or_raised

/-- Settles O14: the commands of the table move `PHASE` by their rows, the others leave it, and a phase without a row is a
"-" of the phase table. -/
theorem phaseMovesOnlyByTheTable : Obligations.PhaseMovesOnlyByTheTable := by
  refine ⟨fun i s t h => exec_phase_kept_or_moved h, fun i s t q h hfault hq => ?_, fun s => rfl,
    fun i s h0 hi hnone => ?_⟩
  · rcases exec_moves_phase (writesPhase_of_phaseMove hq) h with hstop | hmove
    · exact absurd hfault (fault_ne_zero_of_refused_or_raised hstop)
    · exact phaseMove_unique hmove hq
  · have hwrites : writesPhase i = true := by
      rcases hi with rfl | rfl | rfl | rfl | rfl | rfl <;> rfl
    have hillegal : ¬legalIn i s.phase = true := fun hlegal =>
      have ⟨q, hq⟩ := (legalIn_iff_exists_phaseMove hwrites s.phase).1 hlegal
      hnone q hq
    exact illegalPhaseFaults i s h0 (Bool.eq_false_iff.2 hillegal)

/-! ### `NOP`, `SRESET`, `STOP` (R125, R126, R128) -/

/-- Settles O18: `NOP` has check 0 only. -/
theorem nopAnswersAndChangesNothing : Obligations.NopAnswersAndChangesNothing :=
  ⟨rfl, fun _ h0 => unlessFaulted_of_zero h0 _, fun _ hne => unlessFaulted_of_ne hne _⟩

/-- Settles O19: `SRESET` has no check, and `State.resetBlock` is the reset state with the streams of the one before. -/
theorem sresetRestoresTheResetState : Obligations.SresetRestoresTheResetState := ⟨rfl, fun _ => rfl⟩

/-- Settles O23: behind the check of its phases `STOP` writes `PHASE` only; the other two are dashes of the phase table. -/
theorem stopEndsThePass : Obligations.StopEndsThePass := by
  refine ⟨rfl, fun s h0 hp => checkedCommand_of h0 hp _, fun s h0 hp => illegalPhaseFaults .stop s h0 ?_⟩
  rcases hp with hp | hp <;> rw [hp] <;> rfl

/-! ### `RDR` (R16, R127) -/

theorem exec_rdr_of_some {s : State} {r : Byte} {v : Word} (h : s.register r = some v) :
    exec (.rdr r) s = .next (s.answer false v) := by
  simp only [exec, execRdr, h, respond_eq]

theorem exec_rdr_of_none {s : State} {r : Byte} (h : s.register r = none) :
    exec (.rdr r) s = unlessFaulted s (raise .operand s) := by
  simp only [exec, execRdr, h]

/-- The register map ends at 0x1B (R16). -/
theorem register_eq_none {s : State} {r : Byte} (h : 0x1B < r.toNat) : s.register r = none := by
  rw [← Option.isNone_iff_eq_none, ← Option.isSome_eq_false_iff, register_isSome]
  exact decide_eq_false h.not_ge

/-- The upper word of a 40-bit register is the one byte the register view gives (R16). -/
theorem extractHighWord_eq (x : Len) : x.extractLsb' 32 32 = (x.extractLsb' 32 8).zeroExtend 32 := by
  have hx := x.isLt
  refine BitVec.eq_of_toNat_eq ?_
  simp only [BitVec.zeroExtend, BitVec.toNat_setWidth, BitVec.extractLsb'_toNat, Nat.shiftRight_eq_div_pow]
  omega

/-- Settles O21: the words of the map are those of the register view, entry by entry. -/
theorem rdrReadsTheRegisterMap : Obligations.RdrReadsTheRegisterMap := by
  refine ⟨fun r => congrArg (fun w => [w]) (append_eq_or (0x02#8 ++ 0#16) r),
    fun s e he => exec_rdr_of_some ?_, fun s r hr h0 => ?_, fun s r hr hne => ?_⟩
  · revert e
    simp only [List.forall_mem_cons, List.not_mem_nil, false_imp_iff, implies_true, and_true,
      BitVec.setWidth_ushiftRight_eq_extractLsb, extractHighWord_eq]
    and_intros <;> rfl
  · rw [exec_rdr_of_none (register_eq_none hr), unlessFaulted_of_zero h0, raise_eq]
  · rw [exec_rdr_of_none (register_eq_none hr), unlessFaulted_of_ne hne, refuse_eq]

end Sys2Proof.Machine

/-! # Holds, refusals and faults (60_exceptions.md) -/

namespace Sys2Proof.Machine

/-! ### A faulted block (R137) -/

/-- Every command but `SRESET` and a mapped `RDR` begins with check 0 (R138). -/
theorem exec_eq_unlessFaulted {i : Instr} {s : State} (hreset : i ≠ .sreset)
    (hmapped : ∀ r, i = .rdr r → 0x1B < r.toNat) : ∃ k, exec i s = unlessFaulted s k := by
  cases i with
  | sreset => exact absurd rfl hreset
  | rdr r => exact ⟨_, exec_rdr_of_none (register_eq_none (hmapped r rfl))⟩
  | _ => exact ⟨_, rfl⟩

theorem step_of_fetch_illegal_faulted {s : State} {why : IllegalReason} {rest : List Word} (hne : s.fault ≠ 0)
    (h : fetch s.cmd = .illegal why rest) :
    step s = .next (({ s with cmd := rest } : State).answer true (s.fault.zeroExtend 32)) := by
  simp only [step, h]
  exact unlessFaulted_of_ne (s := { s with cmd := rest }) hne _

/-- Settles O8: check 0 refuses; `RDR` reads the register view before it and `SRESET` does not have it. -/
theorem faultedBlockRefuses : Obligations.FaultedBlockRefuses := by
  intro s hne
  refine ⟨fun i hreset hmapped => ?_, fun why rest hf => step_of_fetch_illegal_faulted hne hf, fun r hr => ?_,
    s.resetBlock.answer false 0, rfl, rfl, rfl, rfl⟩
  · obtain ⟨k, hk⟩ := exec_eq_unlessFaulted (s := s) hreset hmapped
    rw [hk, unlessFaulted_of_ne hne, refuse_eq]
  · obtain ⟨v, hv⟩ := Option.isSome_iff_exists.1 ((register_isSome s r).trans (decide_eq_true hr))
    exact ⟨v, hv, exec_rdr_of_some hv⟩

/-! ### The state a fault leaves (R136) -/

/-- On a block that has not faulted there is no refusal, so a fault code after an outcome is one that was raised. -/
theorem faulted_of_refused_or_raised {s t : State} (h0 : s.fault = 0) (h : Refused s t ∨ Raised s t) :
    ∃ c, t = s.faulted c := by
  rcases h with ⟨hne, -⟩ | ⟨-, hraised⟩
  · exact absurd h0 hne
  · exact hraised

/-- An effect leaves `FAULT` at 0, so a command that leaves a code there has raised it. -/
theorem exec_faulted {i : Instr} {s t : State} (h0 : s.fault = 0) (h : exec i s = .next t) (hne : t.fault ≠ 0) :
    ∃ c, t = s.faulted c := by
  rcases or_assoc.2 (exec_next h) with hfault | heff
  · exact faulted_of_refused_or_raised h0 hfault
  · rcases heff.fault_kept_or_reset with hkeep | ⟨-, hzero⟩
    · exact absurd (hkeep.trans h0) hne
    · exact absurd hzero hne

theorem step_faulted {s t : State} (h0 : s.fault = 0) (h : step s = .next t) (hne : t.fault ≠ 0) :
    ∃ rest c, t = ({ s with cmd := rest } : State).faulted c := by
  rcases step_next h with ⟨i, rest, -, he⟩ | ⟨why, rest, -, hi⟩
  · exact ⟨rest, exec_faulted (s := { s with cmd := rest }) h0 he hne⟩
  · exact ⟨rest, faulted_of_refused_or_raised (s := { s with cmd := rest }) h0 (illegalCommand_next hi)⟩

/-- Settles O9: the only way to a code in `FAULT` is `State.faulted`, on the state whose words the step has taken. -/
theorem faultsArePrecise : Obligations.FaultsArePrecise := by
  refine ⟨fun i s t h0 h hne => exec_faulted h0 h hne, fun s t h0 h hne => ?_⟩
  obtain ⟨rest, c, rfl⟩ := step_faulted h0 h hne
  exact ⟨c, rfl⟩

/-! ### Where a step stops (R41, R54, R141) -/

/-- The outcome is a next state, or, only where `mayHold`, the hold for bytes of IN. -/
def CompletesOrHolds (mayHold : Prop) (r : Result) : Prop :=
  (∃ t, r = .next t) ∨ (mayHold ∧ r = .fault .holdInput)

namespace CompletesOrHolds

variable {mayHold : Prop}

theorem next (t : State) : CompletesOrHolds mayHold (.next t) := .inl ⟨t, rfl⟩

theorem respond (d : Word) (s : State) : CompletesOrHolds mayHold (respond d s) := .next _

/-- Behind check 0 the block has not faulted. -/
theorem unlessFaulted {s : State} {k : Result} (h : s.fault = 0 → CompletesOrHolds mayHold k) :
    CompletesOrHolds mayHold (unlessFaulted s k) := by
  by_cases h0 : s.fault = 0
  · rw [unlessFaulted_of_zero h0]
    exact h h0
  · rw [unlessFaulted_of_ne h0]
    exact .next _

theorem require {c : Prop} [Decidable c] {f : FaultCode} {s : State} {k : Result} (h : CompletesOrHolds mayHold k) :
    CompletesOrHolds mayHold (require c f s k) := by
  by_cases hc : c
  · rw [require_of hc]
    exact h
  · rw [require_of_not hc]
    exact .next _

theorem orHold {o : Option Result} (hold : mayHold) (h : ∀ r ∈ o, ∃ t, r = .next t) :
    CompletesOrHolds mayHold (orHold o) := by
  cases o with
  | none => exact .inr ⟨hold, rfl⟩
  | some r => exact .inl (h r rfl)

theorem orHold_map {α : Type} (o : Option α) (d : α → Word) (f : α → State) (hold : mayHold) :
    CompletesOrHolds mayHold (Machine.orHold (o.map fun a => Machine.respond (d a) (f a))) := by
  refine orHold hold fun r hr => ?_
  obtain ⟨a, -, rfl⟩ := Option.map_eq_some_iff.1 hr
  exact ⟨_, rfl⟩

end CompletesOrHolds

theorem writeHeader_completes (s : State) : ∃ t, writeHeader s = .next t := by
  unfold writeHeader
  split
  · exact ⟨_, rfl⟩
  · split
    · exact ⟨_, rfl⟩
    · exact ⟨_, rfl⟩

theorem readHeader_completes {s : State} {r : Result} (h : readHeader s = some r) : ∃ t, r = .next t := by
  obtain ⟨field, -, hrest⟩ := Option.bind_eq_some_iff.1 h
  unfold readHeaderRest at hrest
  split at hrest
  · exact ⟨_, (Option.some.inj hrest).symm⟩
  · split at hrest
    · exact ⟨_, (Option.some.inj hrest).symm⟩
    · obtain ⟨bitmap, -, rfl⟩ := Option.map_eq_some_iff.1 hrest
      exact ⟨_, rfl⟩

/-- The commands that take bytes of IN (R41). -/
def ReadsInput (i : Instr) : Prop := i = .hdrr ∨ i = .dstart ∨ (∃ p, i = .dbit p) ∨ i = .decb

/-- A command ends behind however many checks it has; only the four that read IN can hold, and only past check 0. -/
theorem exec_completes_or_holds (i : Instr) (s : State) :
    CompletesOrHolds (s.fault = 0 ∧ ReadsInput i) (exec i s) := by
  cases i with
  | sreset => exact .respond _ _
  | rdr r =>
    cases hr : s.register r with
    | none => exact exec_rdr_of_none hr ▸ .unlessFaulted fun _ => .next _
    | some v => exact exec_rdr_of_some hr ▸ .next _
  | nop | seed => exact .unlessFaulted fun _ => .respond _ _
  | stop | vmclr | vmall | vmark | vmbuild | vmfwd | vminv | estart | eflush | btrst | genb | setmask | setlen =>
    exact .unlessFaulted fun _ => .require (.respond _ _)
  | ebit | btstep | xent | gstart | sdist => exact .unlessFaulted fun _ => .require (.require (.respond _ _))
  | encb | pinit | ppred | sstart | trainb =>
    exact .unlessFaulted fun _ => .require (.require (.require (.respond _ _)))
  | pobs => exact .unlessFaulted fun _ => .require (.require (.require (.require (.respond _ _))))
  | hdrw => exact .unlessFaulted fun _ => .require (.inl (writeHeader_completes s))
  | hdrr =>
    exact .unlessFaulted fun h0 => .require (.orHold ⟨h0, .inl rfl⟩ fun _ hr => readHeader_completes hr)
  | dstart => exact .unlessFaulted fun h0 => .require (.orHold_map _ _ _ ⟨h0, .inr (.inl rfl)⟩)
  | dbit p =>
    exact .unlessFaulted fun h0 => .require (.require (.orHold_map _ _ _ ⟨h0, .inr (.inr (.inl ⟨p, rfl⟩))⟩))
  | decb =>
    exact .unlessFaulted fun h0 =>
      .require (.require (.require (.orHold_map _ _ _ ⟨h0, .inr (.inr (.inr rfl))⟩)))

theorem withRest_isWhole (d : Decoded) (rest : List Word) :
    d.withRest rest ≠ .noCommand ∧ d.withRest rest ≠ .noExtension := by
  cases d <;> exact ⟨nofun, nofun⟩

/-- The word stream is empty, holds half a two-word command, or begins with a whole command (R54, R57). -/
theorem fetch_cases (ws : List Word) :
    ws = [] ∨ (∃ w, ws = [w] ∧ hasExtension w = true) ∨ ∃ d rest, fetch ws = Decoded.withRest d rest := by
  cases ws with
  | nil => exact .inl rfl
  | cons w ws =>
    cases hx : hasExtension w with
    | false => exact .inr (.inr ⟨_, _, fetch_one_word hx ws⟩)
    | true =>
      cases ws with
      | nil => exact .inr (.inl ⟨w, rfl, hx⟩)
      | cons ext ws => exact .inr (.inr ⟨_, _, fetch_two_words hx ext ws⟩)

theorem fetch_eq_noCommand_iff {ws : List Word} : fetch ws = .noCommand ↔ ws = [] := by
  refine ⟨fun h => ?_, fun h => h ▸ fetch_nil⟩
  rcases fetch_cases ws with hnil | ⟨w, rfl, hx⟩ | ⟨d, rest, hd⟩
  · exact hnil
  · cases (fetch_missing_extension hx).symm.trans h
  · exact absurd (hd.symm.trans h) (withRest_isWhole d rest).1

theorem fetch_eq_noExtension_iff {ws : List Word} :
    fetch ws = .noExtension ↔ ∃ w, ws = [w] ∧ hasExtension w = true := by
  refine ⟨fun h => ?_, fun ⟨w, hw, hx⟩ => hw ▸ fetch_missing_extension hx⟩
  rcases fetch_cases ws with rfl | hhalf | ⟨d, rest, hd⟩
  · cases fetch_nil.symm.trans h
  · exact hhalf
  · exact absurd (hd.symm.trans h) (withRest_isWhole d rest).2

/-- What a step on a whole command, legal or illegal, can answer. -/
theorem step_completes_or_holds {s : State} (hword : fetch s.cmd ≠ .noCommand) (hext : fetch s.cmd ≠ .noExtension) :
    CompletesOrHolds (s.fault = 0 ∧ ∃ i rest, fetch s.cmd = .command i rest ∧ ReadsInput i) (step s) := by
  cases hf : fetch s.cmd with
  | noCommand => exact absurd hf hword
  | noExtension => exact absurd hf hext
  | illegal why rest =>
    simp only [step, hf]
    exact .unlessFaulted fun _ => .next _
  | command i rest =>
    rw [step_of_fetch_command hf]
    exact (exec_completes_or_holds i { s with cmd := rest }).imp_right fun ⟨⟨h0, hi⟩, hhold⟩ =>
      ⟨⟨h0, i, rest, rfl, hi⟩, hhold⟩

/-- Settles O7: the two holds for words are `fetch`'s, and a whole command completes or holds for IN. -/
theorem stepHoldsOnlyForWordsOrInput : Obligations.StepHoldsOnlyForWordsOrInput := by
  intro s
  rw [← fetch_eq_noCommand_iff, ← fetch_eq_noExtension_iff]
  by_cases hword : fetch s.cmd = .noCommand
  · have hstep : step s = .fault .holdCommand := by simp only [step, hword]
    simp [hstep, hword]
  by_cases hext : fetch s.cmd = .noExtension
  · have hstep : step s = .fault .holdExtension := by simp only [step, hext]
    simp [hstep, hext]
  rcases step_completes_or_holds hword hext with ⟨t, hstep⟩ | ⟨hreads, hstep⟩
  · simp [hstep, hword, hext]
  · simpa [hstep, hword, hext, ReadsInput] using hreads

end Sys2Proof.Machine

/-! # Hardware reset (70_reset_and_hazards.md) -/

namespace Sys2Proof.Machine

variable {s : State}

/-! ### The held command and its words (R146, log 10) -/

theorem holding_of_holdInput (h : step s = .fault .holdInput) : s.holding = true := by
  simp only [State.holding, h]

theorem holding_of_holdExtension (h : step s = .fault .holdExtension) : s.holding = true := by
  simp only [State.holding, h]

theorem dropCommand_of_noExtension (h : fetch s.cmd = .noExtension) : s.dropCommand = { s with cmd := [] } := by
  simp only [State.dropCommand, h]

theorem dropCommand_of_command {i : Instr} {rest : List Word} (h : fetch s.cmd = .command i rest) :
    s.dropCommand = { s with cmd := rest } := by
  simp only [State.dropCommand, h]

/-- Dropping the command at the head of the port touches the port only. -/
theorem dropCommand_eq (s : State) : ∃ cmd, s.dropCommand = { s with cmd := cmd } := by
  cases hf : fetch s.cmd with
  | noCommand => exact ⟨s.cmd, by simp only [State.dropCommand, hf]⟩
  | noExtension => exact ⟨[], dropCommand_of_noExtension hf⟩
  | illegal why rest => exact ⟨rest, by simp only [State.dropCommand, hf]⟩
  | command i rest => exact ⟨rest, dropCommand_of_command hf⟩

/-! ### Hardware reset with and without a held command -/

theorem hardReset_of_not_holding (h : s.holding = false) : s.hardReset = s.resetBlock := by
  simp [State.hardReset, h]

theorem hardReset_of_holding (h : s.holding = true) : s.hardReset = s.dropCommand.resetBlock := by
  simp [State.hardReset, h]

/-- Hardware reset is the block's reset on the state whose port alone may have changed. -/
theorem hardReset_eq_resetBlock (s : State) : ∃ cmd, s.hardReset = ({ s with cmd := cmd } : State).resetBlock := by
  cases hh : s.holding with
  | false => exact ⟨s.cmd, hardReset_of_not_holding hh⟩
  | true =>
    obtain ⟨cmd, hdrop⟩ := dropCommand_eq s
    exact ⟨cmd, by rw [hardReset_of_holding hh, hdrop]⟩

/-- Half a two-word command holds for its extension word, and the reset takes the word it has (R54, R146). -/
theorem hardReset_cmd_of_noExtension (h : fetch s.cmd = .noExtension) : s.hardReset.cmd = [] := by
  have hstep : step s = .fault .holdExtension := by simp only [step, h]
  rw [hardReset_of_holding (holding_of_holdExtension hstep), dropCommand_of_noExtension h, State.resetBlock_cmd]

theorem hardReset_cmd_of_holdInput {i : Instr} {rest : List Word} (hf : fetch s.cmd = .command i rest)
    (hstep : step s = .fault .holdInput) : s.hardReset.cmd = rest := by
  rw [hardReset_of_holding (holding_of_holdInput hstep), dropCommand_of_command hf, State.resetBlock_cmd]

/-- Settles O58: only the port distinguishes hardware reset from the block's reset, and only a held command's words
leave the port. -/
theorem hardResetAbandonsTheHeldCommand : Obligations.HardResetAbandonsTheHeldCommand := by
  refine ⟨hardReset_eq_resetBlock, fun s hh => ?_, fun s w hx hcmd => ?_,
    fun _ _ _ hf hstep => hardReset_cmd_of_holdInput hf hstep⟩
  · rw [hardReset_of_not_holding hh, State.resetBlock_cmd]
  · exact hardReset_cmd_of_noExtension (fetch_eq_noExtension_iff.2 ⟨w, hcmd, hx⟩)

end Sys2Proof.Machine

/-! # The bit-tree walk (43_bittree.md) -/

namespace Sys2Proof.Machine

variable {s : State}

/-! ### `BTRST` and `BTSTEP` (R79, R80) -/

/-- Above the last level the nine bits of `NODE` hold the doubled node and the bit (R80). -/
theorem treeStep_node_toNat (h : s.node.toNat < 2 ^ 8) (bit : Bool) :
    (s.treeStep bit).node.toNat = 2 * s.node.toNat + bit.toNat := by
  have hbit : bit.toNat ≤ 1 := bit.toNat_le
  have hsmall : 2 * s.node.toNat + bit.toNat < 512 := by omega
  simp [BitVec.toNat_add, BitVec.toNat_mul, Nat.mod_eq_of_lt hsmall]

/-- `BTSTEP`'s update with both registers as numbers (R80). -/
theorem treeStep_eq_ofNat (h : s.node.toNat < 2 ^ 8) (bit : Bool) : s.treeStep bit = { s with
    node := BitVec.ofNat 9 (2 * s.node.toNat + bit.toNat), bitcnt := BitVec.ofNat 4 (s.bitcnt.toNat + 1) } := by
  have hnode : (s.treeStep bit).node = BitVec.ofNat 9 (2 * s.node.toNat + bit.toNat) := by
    rw [← treeStep_node_toNat h bit, BitVec.ofNat_toNat, BitVec.setWidth_eq]
  have hbitcnt : (s.treeStep bit).bitcnt = BitVec.ofNat 4 (s.bitcnt.toNat + 1) := by
    rw [State.treeStep_bitcnt]
    bv_omega
  rw [← hnode, ← hbitcnt]
  rfl

/-- The response of `BTSTEP` is the new node (R80). -/
theorem treeStep_node_zeroExtend (h : s.node.toNat < 2 ^ 8) (bit : Bool) :
    (s.treeStep bit).node.zeroExtend 32 = BitVec.ofNat 32 (2 * s.node.toNat + bit.toNat) := by
  rw [← treeStep_node_toNat h bit, BitVec.ofNat_toNat]

theorem exec_btstep_of_full (h0 : s.fault = 0) (hp : s.inBitPhase) (full : 8 ≤ s.bitcnt.toNat) (bit : Bool) :
    exec (.btstep bit) s = .next (s.faulted .seq) := by
  rw [exec, execBtstep, unlessFaulted_of_zero h0, require_of hp,
    require_of_not (c := s.bitcnt.toNat < bitsPerByte) full.not_gt, raise_eq]

theorem exec_btrst_of_inSamplerPhase (h0 : s.fault = 0) (hp : s.inSamplerPhase) :
    exec .btrst s = .next (s.faulted .seq) := by
  rw [exec, execBtrst, unlessFaulted_of_zero h0, require_inBitPhase_of_inSamplerPhase hp]

theorem exec_btstep_of_inSamplerPhase (h0 : s.fault = 0) (hp : s.inSamplerPhase) (bit : Bool) :
    exec (.btstep bit) s = .next (s.faulted .seq) := by
  rw [exec, execBtstep, unlessFaulted_of_zero h0, require_inBitPhase_of_inSamplerPhase hp]

/-- Settles O34: past its checks each command is one update, and each failed check is `F_SEQ`. -/
theorem btrstAndBtstepMoveTheNode : Obligations.BtrstAndBtstepMoveTheNode := by
  refine ⟨rfl, fun bit => ?_, fun s h0 hp => exec_btrst h0 hp, fun s bit h0 hp room hnode => ?_,
    fun s bit h0 hp full => exec_btstep_of_full h0 hp full bit,
    fun s bit h0 hp => ⟨exec_btrst_of_inSamplerPhase h0 hp, exec_btstep_of_inSamplerPhase h0 hp bit⟩⟩
  · cases bit <;> rfl
  · rw [exec_btstep h0 hp room, treeStep_node_zeroExtend hnode, treeStep_eq_ofNat hnode]
    rfl

/-! ### The nodes on the walk of a byte (R81) -/

/-- The state after the first `k` decisions of the walk of `b` (R77, R80). -/
def State.walkPrefix (s : State) (b : Byte) (k : Nat) : State := ((byteBits b).take k).foldl State.treeStep s

/-- The decisions are taken from the most significant bit down (R77). -/
theorem getElem?_byteBits (b : Byte) {k : Nat} (hk : k < 8) : (byteBits b)[k]? = some (b.getLsbD (7 - k)) := by
  interval_cases k <;> rfl

theorem walkPrefix_zero (s : State) (b : Byte) : s.walkPrefix b 0 = s := rfl

theorem walkPrefix_succ (s : State) (b : Byte) {k : Nat} (hk : k < 8) :
    s.walkPrefix b (k + 1) = (s.walkPrefix b k).treeStep (b.getLsbD (7 - k)) := by
  rw [State.walkPrefix, List.take_add_one, getElem?_byteBits b hk, List.foldl_append]
  rfl

theorem walkPrefix_eight (s : State) (b : Byte) : s.walkPrefix b 8 = (byteBits b).foldl State.treeStep s := rfl

/-- The leading `k` bits of a byte are a number of `k` bits. -/
theorem leadingBits_lt (b : Byte) {k : Nat} (hk : k ≤ 8) : b.toNat / 2 ^ (8 - k) < 2 ^ k := by
  have hpow : 2 ^ (8 - k) * 2 ^ k = 2 ^ 8 := by rw [← pow_add, Nat.sub_add_cancel hk]
  exact Nat.div_lt_of_lt_mul (hpow ▸ b.isLt)

/-- One more leading bit doubles their number and adds the bit. -/
theorem leadingBits_succ (b : Byte) {k : Nat} (hk : k < 8) :
    b.toNat / 2 ^ (8 - (k + 1)) = 2 * (b.toNat / 2 ^ (8 - k)) + (b.getLsbD (7 - k)).toNat := by
  have hshift : 8 - k = 7 - k + 1 := by omega
  have hshiftSucc : 8 - (k + 1) = 7 - k := by omega
  have hbit : (b.getLsbD (7 - k)).toNat = b.toNat / 2 ^ (7 - k) % 2 := by
    rw [BitVec.getLsbD, Nat.toNat_testBit]
  rw [hbit, hshift, hshiftSucc, pow_succ, ← Nat.div_div_eq_div_mul, Nat.div_add_mod]

/-- `2^k` plus a number of `k` bits lies between the two powers that mark depth `k` (R81). -/
theorem treePath_bounds (b : Byte) {k : Nat} (hk : k ≤ 8) :
    2 ^ k ≤ 2 ^ k + b.toNat / 2 ^ (8 - k) ∧ 2 ^ k + b.toNat / 2 ^ (8 - k) < 2 ^ (k + 1) := by
  have hlt := leadingBits_lt b hk
  refine ⟨Nat.le_add_right _ _, ?_⟩
  rw [pow_succ, Nat.mul_two]
  exact Nat.add_lt_add_left hlt _

/-- The walk's position by induction on the decisions taken: below depth 8 the node has room to double. -/
theorem walkPrefix_position (hn : s.node = 1) (hb : s.bitcnt = 0) (b : Byte) {k : Nat} (hk : k ≤ 8) :
    (s.walkPrefix b k).node.toNat = 2 ^ k + b.toNat / 2 ^ (8 - k) ∧ (s.walkPrefix b k).bitcnt.toNat = k := by
  induction k with
  | zero =>
    rw [walkPrefix_zero, hn, hb, Nat.div_eq_of_lt b.isLt]
    exact ⟨rfl, rfl⟩
  | succ k ih =>
    obtain ⟨hnode, hbitcnt⟩ := ih (by omega)
    have hpow : 2 ^ (k + 1) ≤ 2 ^ 8 := Nat.pow_le_pow_right (by omega) hk
    have hroom : (s.walkPrefix b k).node.toNat < 2 ^ 8 := by
      rw [hnode]
      exact (treePath_bounds b (by omega)).2.trans_le hpow
    have hdepth : (s.walkPrefix b k).bitcnt.toNat < 8 := hbitcnt.trans_lt hk
    rw [walkPrefix_succ s b hk, treeStep_node_toNat hroom, treeStep_bitcnt_toNat hdepth, hnode, hbitcnt,
      leadingBits_succ b hk]
    exact ⟨by ring, rfl⟩

/-- The leaf of the walk names the byte (R81). -/
theorem walkedByte_of_node {b : Byte} (h : s.node.toNat = 256 + b.toNat) : walkedByte s = b := by
  apply BitVec.eq_of_toNat_eq
  rw [walkedByte, BitVec.extractLsb'_toNat, h, Nat.shiftRight_zero, Nat.add_mod_left, Nat.mod_eq_of_lt b.isLt]

/-- A node has one depth, the position of its leading one (R81). -/
theorem depth_unique {k k' n : Nat} (hk : 2 ^ k ≤ n ∧ n < 2 ^ (k + 1)) (hk' : 2 ^ k' ≤ n ∧ n < 2 ^ (k' + 1)) :
    k = k' :=
  (Nat.log_eq_of_pow_le_of_lt_pow hk.1 hk.2).symm.trans (Nat.log_eq_of_pow_le_of_lt_pow hk'.1 hk'.2)

theorem treePath_eq_iff (b b' : Byte) {k k' : Nat} (hk : k ≤ 8) (hk' : k' ≤ 8) :
    2 ^ k + b.toNat / 2 ^ (8 - k) = 2 ^ k' + b'.toNat / 2 ^ (8 - k') ↔
      k = k' ∧ b.toNat / 2 ^ (8 - k) = b'.toNat / 2 ^ (8 - k) := by
  constructor
  · intro h
    obtain rfl : k = k' := depth_unique (treePath_bounds b hk) (h ▸ treePath_bounds b' hk')
    exact ⟨rfl, Nat.add_left_cancel h⟩
  · rintro ⟨rfl, h⟩
    rw [h]

/-- Settles O35: the node is `2^k` and the leading bits, from which its depth, its bounds and the leaf follow. -/
theorem walkFollowsTheTreePath : Obligations.WalkFollowsTheTreePath := by
  refine ⟨fun s b k hn hb hk => ?_, fun b k hk => getElem?_byteBits b hk, fun s b hn hb => ?_,
    fun b b' k k' hk hk' => treePath_eq_iff b b' (by omega) (by omega)⟩
  · obtain ⟨hnode, hbitcnt⟩ := walkPrefix_position hn hb b hk
    exact ⟨hnode, hbitcnt, hnode ▸ treePath_bounds b hk⟩
  · have hleaf := (walkPrefix_position hn hb b le_rfl).1
    rw [walkPrefix_eight, Nat.sub_self, pow_zero, Nat.div_one] at hleaf
    exact ⟨hleaf, walkedByte_of_node hleaf⟩

end Sys2Proof.Machine
